-- ==== Sys2Proof/Word.lean ====
section
/-! DEFINITION. The word types of the core (R4 of 00_scope.md): 8-bit data and registers, 16-bit addresses, and the
9-bit dispatch word of R66. -/

namespace Sys2Proof

/-- An 8-bit pattern: a memory datum, or the contents of `A`, `X`, `Y`, `SP`, `P` (R4). -/
abbrev Byte := BitVec 8

/-- A 16-bit memory address, and the contents of `PC` (R4). -/
abbrev Addr := BitVec 16

/-- The 9-bit dispatch word `DW` (R66): operation number in bits 8:4, mode number in bits 3:0. -/
abbrev DispatchWord := BitVec 9

end Sys2Proof
end

