-- ==== Sys2Proof/Config.lean ====
section
/-! DEFINITION. What is fixed for the machine and is no state (R31): the closed enumerations of operations, modes and
access kinds, the instruction formats, the causes of the decode fault, the type of the decoder map, and the one byte
the model chose. The parameters `ZP_INDEX_WRAP` = false and `RMW_RESOLVE` = 2 of R4 are fixed by the spec and are
followed in the resolvers; `STACK_BASE` stands in Machine/Ops.lean. The open parameters `MEM` and `INT_RESPONSE` are
uninterpreted constants: `Config.deviceRead`, `Config.deviceWrite` here, `Config.intResponse` in Machine/State.lean. -/

namespace Sys2Proof

/-- The 22 operations, in the order the source lists them (R1, R64). -/
inductive Operation where
  | lda | sta | ldx | ldy | txs | and | ora | adc | cmp | cpy | dec
  | dey | lsr | jmp | jsr | rts | beq | bne | sei | cld | clc | sec
deriving DecidableEq, Repr

/-- The nine addressing modes, in the order the source lists them (R1, R65). -/
inductive Mode where
  | immediate | absolute | relative | accumulator | zeroPage
  | zeroPageIndexedX | zeroPageIndexedY | zeroPageIndirectIndexedX | zeroPageIndirectIndexedY
deriving DecidableEq, Repr

/-- Which of the three addressing-mode tables a handler consults (00_scope.md, glossary). -/
inductive AccessKind where
  | read | write | addressSupply
deriving DecidableEq, Repr

/-- The modes whose read-table entry yields an 8-bit value (R96 to R103). Relative, which yields an address, has its
own resolver (R99); the two Y-indexed modes have no read entry (R104). -/
inductive ReadMode where
  | immediate | absolute | accumulator | zeroPage | zeroPageIndexedX | zeroPageIndirectIndexedX
deriving DecidableEq, Repr

/-- The modes that have a write-table entry (R105 to R111). -/
inductive WriteMode where
  | absolute | accumulator | zeroPage | zeroPageIndexedY | zeroPageIndirectIndexedY
deriving DecidableEq, Repr

/-- The modes that have both a read and a write entry: those of LSR and DEC (R72). -/
inductive RmwMode where
  | absolute | accumulator | zeroPage
deriving DecidableEq, Repr

/-- The five instruction formats in memory (R61). -/
inductive Format where
  | f0 | f1 | f2 | f1r | f2r
deriving DecidableEq, Repr

/-- The causes of the decode fault (R171). -/
inductive DecodeCause where
  | unknownOpcode | illegalModeAccess
deriving DecidableEq, Repr

/-- What a decode fault records (R171): the cause, and the opcode byte (zero-extended) or the dispatch word. -/
structure DecodeFault where
  cause : DecodeCause
  info  : BitVec 9
deriving DecidableEq, Repr

/-- An instance of the decoder map `DECODE` (R70): opcode bytes and the dispatch words they stand for. A byte that is
not listed is outside the domain; the first entry for a byte counts. -/
abbrev DecodeMap := List (Byte × DispatchWord)

/-- One row of the opcode table (R82). -/
structure OpcodeRow where
  mnemonic   : String
  mode       : Option Mode
  format     : Format
  matchWord  : DispatchWord
  mask       : DispatchWord
  length     : Nat
  opcodeByte : Option Byte
deriving DecidableEq, Repr

/-- DESIGN CHOICE (log 3), unsafe: what a location reads as that nothing has written. The spec leaves the launch
contents of memory open (R30, R56); its test vectors take 0x00. -/
def Config.unlistedByte : Byte := 0x00#8

/-- `MEM.read` of an agent that is no plain storage (R40), by the agent's number: from its state and the address, the
byte it answers and its state after. Open (log 2): nothing constrains it. -/
opaque Config.deviceRead : Nat → List Nat → Addr → Byte × List Nat

/-- `MEM.write` of an agent that is no plain storage (R40), by the agent's number: its state after the write. Open (log
2): nothing constrains it. -/
opaque Config.deviceWrite : Nat → List Nat → Addr → Byte → List Nat

end Sys2Proof
end

