-- ==== Sys2Proof/Syntax.lean ====
section
/-! DEFINITION. The instructions. `Instr` has one constructor per row of spec/opcode_table.json, that is one per
admitted instruction (R72). An instruction holds no operand bytes: they stay in memory at `PC` and the handler's
resolvers read them (R60, R66). The seven mode-less operations carry the four mode bits of their dispatch word, which
they ignore (R67). -/

namespace Sys2Proof

/-- The 70 admitted instructions (R72), in the table's order. -/
inductive Instr where
  /-- LDA Immediate: dispatch word 0x000 (R120). -/
  | ldaImmediate
  /-- LDA Absolute: dispatch word 0x001 (R120). -/
  | ldaAbsolute
  /-- LDA Accumulator: dispatch word 0x003 (R120). -/
  | ldaAccumulator
  /-- LDA ZeroPage: dispatch word 0x004 (R120). -/
  | ldaZeroPage
  /-- LDA ZeroPageIndexedX: dispatch word 0x005 (R120). -/
  | ldaZeroPageIndexedX
  /-- LDA ZeroPageIndirectIndexedX: dispatch word 0x007 (R120). -/
  | ldaZeroPageIndirectIndexedX
  /-- STA Absolute: dispatch word 0x011 (R123). -/
  | staAbsolute
  /-- STA Accumulator: dispatch word 0x013 (R123). -/
  | staAccumulator
  /-- STA ZeroPage: dispatch word 0x014 (R123). -/
  | staZeroPage
  /-- STA ZeroPageIndexedY: dispatch word 0x016 (R123). -/
  | staZeroPageIndexedY
  /-- STA ZeroPageIndirectIndexedY: dispatch word 0x018 (R123). -/
  | staZeroPageIndirectIndexedY
  /-- LDX Immediate: dispatch word 0x020 (R121). -/
  | ldxImmediate
  /-- LDX Absolute: dispatch word 0x021 (R121). -/
  | ldxAbsolute
  /-- LDX Accumulator: dispatch word 0x023 (R121). -/
  | ldxAccumulator
  /-- LDX ZeroPage: dispatch word 0x024 (R121). -/
  | ldxZeroPage
  /-- LDX ZeroPageIndexedX: dispatch word 0x025 (R121). -/
  | ldxZeroPageIndexedX
  /-- LDX ZeroPageIndirectIndexedX: dispatch word 0x027 (R121). -/
  | ldxZeroPageIndirectIndexedX
  /-- LDY Immediate: dispatch word 0x030 (R122). -/
  | ldyImmediate
  /-- LDY Absolute: dispatch word 0x031 (R122). -/
  | ldyAbsolute
  /-- LDY Accumulator: dispatch word 0x033 (R122). -/
  | ldyAccumulator
  /-- LDY ZeroPage: dispatch word 0x034 (R122). -/
  | ldyZeroPage
  /-- LDY ZeroPageIndexedX: dispatch word 0x035 (R122). -/
  | ldyZeroPageIndexedX
  /-- LDY ZeroPageIndirectIndexedX: dispatch word 0x037 (R122). -/
  | ldyZeroPageIndirectIndexedX
  /-- TXS, mode field ignored: dispatch words 0x04m (R124). -/
  | txs (m : BitVec 4)
  /-- AND Immediate: dispatch word 0x050 (R130). -/
  | andImmediate
  /-- AND Absolute: dispatch word 0x051 (R130). -/
  | andAbsolute
  /-- AND Accumulator: dispatch word 0x053 (R130). -/
  | andAccumulator
  /-- AND ZeroPage: dispatch word 0x054 (R130). -/
  | andZeroPage
  /-- AND ZeroPageIndexedX: dispatch word 0x055 (R130). -/
  | andZeroPageIndexedX
  /-- AND ZeroPageIndirectIndexedX: dispatch word 0x057 (R130). -/
  | andZeroPageIndirectIndexedX
  /-- ORA Immediate: dispatch word 0x060 (R131). -/
  | oraImmediate
  /-- ORA Absolute: dispatch word 0x061 (R131). -/
  | oraAbsolute
  /-- ORA Accumulator: dispatch word 0x063 (R131). -/
  | oraAccumulator
  /-- ORA ZeroPage: dispatch word 0x064 (R131). -/
  | oraZeroPage
  /-- ORA ZeroPageIndexedX: dispatch word 0x065 (R131). -/
  | oraZeroPageIndexedX
  /-- ORA ZeroPageIndirectIndexedX: dispatch word 0x067 (R131). -/
  | oraZeroPageIndirectIndexedX
  /-- ADC Immediate: dispatch word 0x070 (R132). -/
  | adcImmediate
  /-- ADC Absolute: dispatch word 0x071 (R132). -/
  | adcAbsolute
  /-- ADC Accumulator: dispatch word 0x073 (R132). -/
  | adcAccumulator
  /-- ADC ZeroPage: dispatch word 0x074 (R132). -/
  | adcZeroPage
  /-- ADC ZeroPageIndexedX: dispatch word 0x075 (R132). -/
  | adcZeroPageIndexedX
  /-- ADC ZeroPageIndirectIndexedX: dispatch word 0x077 (R132). -/
  | adcZeroPageIndirectIndexedX
  /-- CMP Immediate: dispatch word 0x080 (R133). -/
  | cmpImmediate
  /-- CMP Absolute: dispatch word 0x081 (R133). -/
  | cmpAbsolute
  /-- CMP Accumulator: dispatch word 0x083 (R133). -/
  | cmpAccumulator
  /-- CMP ZeroPage: dispatch word 0x084 (R133). -/
  | cmpZeroPage
  /-- CMP ZeroPageIndexedX: dispatch word 0x085 (R133). -/
  | cmpZeroPageIndexedX
  /-- CMP ZeroPageIndirectIndexedX: dispatch word 0x087 (R133). -/
  | cmpZeroPageIndirectIndexedX
  /-- CPY Immediate: dispatch word 0x090 (R134). -/
  | cpyImmediate
  /-- CPY Absolute: dispatch word 0x091 (R134). -/
  | cpyAbsolute
  /-- CPY Accumulator: dispatch word 0x093 (R134). -/
  | cpyAccumulator
  /-- CPY ZeroPage: dispatch word 0x094 (R134). -/
  | cpyZeroPage
  /-- CPY ZeroPageIndexedX: dispatch word 0x095 (R134). -/
  | cpyZeroPageIndexedX
  /-- CPY ZeroPageIndirectIndexedX: dispatch word 0x097 (R134). -/
  | cpyZeroPageIndirectIndexedX
  /-- DEC Absolute: dispatch word 0x0A1 (R141). -/
  | decAbsolute
  /-- DEC Accumulator: dispatch word 0x0A3 (R141). -/
  | decAccumulator
  /-- DEC ZeroPage: dispatch word 0x0A4 (R141). -/
  | decZeroPage
  /-- DEY, mode field ignored: dispatch words 0x0Bm (R142). -/
  | dey (m : BitVec 4)
  /-- LSR Absolute: dispatch word 0x0C1 (R140). -/
  | lsrAbsolute
  /-- LSR Accumulator: dispatch word 0x0C3 (R140). -/
  | lsrAccumulator
  /-- LSR ZeroPage: dispatch word 0x0C4 (R140). -/
  | lsrZeroPage
  /-- JMP Absolute: dispatch word 0x0D1 (R150). -/
  | jmpAbsolute
  /-- JSR Absolute: dispatch word 0x0E1 (R151). -/
  | jsrAbsolute
  /-- RTS, mode field ignored: dispatch words 0x0Fm (R152). -/
  | rts (m : BitVec 4)
  /-- BEQ Relative: dispatch word 0x102 (R153). -/
  | beqRelative
  /-- BNE Relative: dispatch word 0x112 (R154). -/
  | bneRelative
  /-- SEI, mode field ignored: dispatch words 0x12m (R160). -/
  | sei (m : BitVec 4)
  /-- CLD, mode field ignored: dispatch words 0x13m (R161). -/
  | cld (m : BitVec 4)
  /-- CLC, mode field ignored: dispatch words 0x14m (R162). -/
  | clc (m : BitVec 4)
  /-- SEC, mode field ignored: dispatch words 0x15m (R163). -/
  | sec (m : BitVec 4)
deriving DecidableEq, Repr

/-- LDA in each of its admitted modes. -/
def Instr.lda : ReadMode → Instr
  | .immediate => .ldaImmediate
  | .absolute => .ldaAbsolute
  | .accumulator => .ldaAccumulator
  | .zeroPage => .ldaZeroPage
  | .zeroPageIndexedX => .ldaZeroPageIndexedX
  | .zeroPageIndirectIndexedX => .ldaZeroPageIndirectIndexedX

/-- STA in each of its admitted modes. -/
def Instr.sta : WriteMode → Instr
  | .absolute => .staAbsolute
  | .accumulator => .staAccumulator
  | .zeroPage => .staZeroPage
  | .zeroPageIndexedY => .staZeroPageIndexedY
  | .zeroPageIndirectIndexedY => .staZeroPageIndirectIndexedY

/-- LDX in each of its admitted modes. -/
def Instr.ldx : ReadMode → Instr
  | .immediate => .ldxImmediate
  | .absolute => .ldxAbsolute
  | .accumulator => .ldxAccumulator
  | .zeroPage => .ldxZeroPage
  | .zeroPageIndexedX => .ldxZeroPageIndexedX
  | .zeroPageIndirectIndexedX => .ldxZeroPageIndirectIndexedX

/-- LDY in each of its admitted modes. -/
def Instr.ldy : ReadMode → Instr
  | .immediate => .ldyImmediate
  | .absolute => .ldyAbsolute
  | .accumulator => .ldyAccumulator
  | .zeroPage => .ldyZeroPage
  | .zeroPageIndexedX => .ldyZeroPageIndexedX
  | .zeroPageIndirectIndexedX => .ldyZeroPageIndirectIndexedX

/-- AND in each of its admitted modes. -/
def Instr.and : ReadMode → Instr
  | .immediate => .andImmediate
  | .absolute => .andAbsolute
  | .accumulator => .andAccumulator
  | .zeroPage => .andZeroPage
  | .zeroPageIndexedX => .andZeroPageIndexedX
  | .zeroPageIndirectIndexedX => .andZeroPageIndirectIndexedX

/-- ORA in each of its admitted modes. -/
def Instr.ora : ReadMode → Instr
  | .immediate => .oraImmediate
  | .absolute => .oraAbsolute
  | .accumulator => .oraAccumulator
  | .zeroPage => .oraZeroPage
  | .zeroPageIndexedX => .oraZeroPageIndexedX
  | .zeroPageIndirectIndexedX => .oraZeroPageIndirectIndexedX

/-- ADC in each of its admitted modes. -/
def Instr.adc : ReadMode → Instr
  | .immediate => .adcImmediate
  | .absolute => .adcAbsolute
  | .accumulator => .adcAccumulator
  | .zeroPage => .adcZeroPage
  | .zeroPageIndexedX => .adcZeroPageIndexedX
  | .zeroPageIndirectIndexedX => .adcZeroPageIndirectIndexedX

/-- CMP in each of its admitted modes. -/
def Instr.cmp : ReadMode → Instr
  | .immediate => .cmpImmediate
  | .absolute => .cmpAbsolute
  | .accumulator => .cmpAccumulator
  | .zeroPage => .cmpZeroPage
  | .zeroPageIndexedX => .cmpZeroPageIndexedX
  | .zeroPageIndirectIndexedX => .cmpZeroPageIndirectIndexedX

/-- CPY in each of its admitted modes. -/
def Instr.cpy : ReadMode → Instr
  | .immediate => .cpyImmediate
  | .absolute => .cpyAbsolute
  | .accumulator => .cpyAccumulator
  | .zeroPage => .cpyZeroPage
  | .zeroPageIndexedX => .cpyZeroPageIndexedX
  | .zeroPageIndirectIndexedX => .cpyZeroPageIndirectIndexedX

/-- DEC in each of its admitted modes. -/
def Instr.dec : RmwMode → Instr
  | .absolute => .decAbsolute
  | .accumulator => .decAccumulator
  | .zeroPage => .decZeroPage

/-- LSR in each of its admitted modes. -/
def Instr.lsr : RmwMode → Instr
  | .absolute => .lsrAbsolute
  | .accumulator => .lsrAccumulator
  | .zeroPage => .lsrZeroPage

/-- One line of assembly (R80, R81): an instruction and the operand bytes that follow its opcode byte in memory. -/
structure Line where
  instr    : Instr
  operands : List Byte
deriving DecidableEq, Repr

end Sys2Proof
end

