-- ==== Sys2Proof/WellFormed.lean ====
section
/-! DEFINITION. What is well formed: the admitted (operation, mode) pairs, computed from the three addressing-mode
tables as R72 closes them, and the lines whose operand bytes have the length of their instruction's format. -/

namespace Sys2Proof

/-- The seven operations that take no operand and ignore the mode field (R67). -/
def Operation.ignoresMode : Operation → Bool
  | .txs | .dey | .rts | .sei | .cld | .clc | .sec => true
  | .lda | .sta | .ldx | .ldy | .and | .ora | .adc | .cmp | .cpy | .dec | .lsr | .jmp | .jsr | .beq | .bne => false

/-- The two branches: the only operations that take mode Relative (R72, R75). -/
def Operation.isBranch (op : Operation) : Bool := op == .beq || op == .bne

/-- The access kinds an operation's handler uses, one per resolution, in order (R72). -/
def Operation.accesses : Operation → List AccessKind
  | .lda | .ldx | .ldy | .and | .ora | .adc | .cmp | .cpy | .beq | .bne => [.read]
  | .sta => [.write]
  | .lsr | .dec => [.read, .write]
  | .jmp | .jsr => [.addressSupply]
  | .txs | .dey | .rts | .sei | .cld | .clc | .sec => []

/-- The three addressing-mode tables: which modes have an entry for an access kind (R65, R104, R111, R112). -/
def AccessKind.hasEntry : AccessKind → Mode → Bool
  | .read, m => m != .zeroPageIndexedY && m != .zeroPageIndirectIndexedY
  | .write, m => m == .absolute || m == .accumulator || m == .zeroPage || m == .zeroPageIndexedY
      || m == .zeroPageIndirectIndexedY
  | .addressSupply, m => m == .absolute

/-- The admitted pairs (R72): every access kind the handler uses has a table entry for the mode, and mode Relative
goes with BEQ and BNE only, and they with it only (R75). -/
def admitted (op : Operation) (m : Mode) : Bool :=
  !op.ignoresMode && op.accesses.all (fun k => k.hasEntry m) && ((m == .relative) == op.isBranch)

/-- The operand bytes one resolution of a mode consumes (R62, R65). -/
def Mode.operandBytes : Mode → Nat
  | .accumulator => 0
  | .absolute => 2
  | .immediate | .relative | .zeroPage | .zeroPageIndexedX | .zeroPageIndexedY
  | .zeroPageIndirectIndexedX | .zeroPageIndirectIndexedY => 1

/-- The operation of an instruction. -/
def Instr.operation : Instr → Operation
  | .ldaImmediate | .ldaAbsolute | .ldaAccumulator | .ldaZeroPage | .ldaZeroPageIndexedX | .ldaZeroPageIndirectIndexedX => .lda
  | .staAbsolute | .staAccumulator | .staZeroPage | .staZeroPageIndexedY | .staZeroPageIndirectIndexedY => .sta
  | .ldxImmediate | .ldxAbsolute | .ldxAccumulator | .ldxZeroPage | .ldxZeroPageIndexedX | .ldxZeroPageIndirectIndexedX => .ldx
  | .ldyImmediate | .ldyAbsolute | .ldyAccumulator | .ldyZeroPage | .ldyZeroPageIndexedX | .ldyZeroPageIndirectIndexedX => .ldy
  | .txs _ => .txs
  | .andImmediate | .andAbsolute | .andAccumulator | .andZeroPage | .andZeroPageIndexedX | .andZeroPageIndirectIndexedX => .and
  | .oraImmediate | .oraAbsolute | .oraAccumulator | .oraZeroPage | .oraZeroPageIndexedX | .oraZeroPageIndirectIndexedX => .ora
  | .adcImmediate | .adcAbsolute | .adcAccumulator | .adcZeroPage | .adcZeroPageIndexedX | .adcZeroPageIndirectIndexedX => .adc
  | .cmpImmediate | .cmpAbsolute | .cmpAccumulator | .cmpZeroPage | .cmpZeroPageIndexedX | .cmpZeroPageIndirectIndexedX => .cmp
  | .cpyImmediate | .cpyAbsolute | .cpyAccumulator | .cpyZeroPage | .cpyZeroPageIndexedX | .cpyZeroPageIndirectIndexedX => .cpy
  | .decAbsolute | .decAccumulator | .decZeroPage => .dec
  | .dey _ => .dey
  | .lsrAbsolute | .lsrAccumulator | .lsrZeroPage => .lsr
  | .jmpAbsolute => .jmp
  | .jsrAbsolute => .jsr
  | .rts _ => .rts
  | .beqRelative => .beq
  | .bneRelative => .bne
  | .sei _ => .sei
  | .cld _ => .cld
  | .clc _ => .clc
  | .sec _ => .sec

/-- The addressing mode of an instruction; none for the seven mode-less ones. -/
def Instr.mode : Instr → Option Mode
  | .ldaImmediate | .ldxImmediate | .ldyImmediate | .andImmediate | .oraImmediate | .adcImmediate | .cmpImmediate | .cpyImmediate => some .immediate
  | .ldaAbsolute | .staAbsolute | .ldxAbsolute | .ldyAbsolute | .andAbsolute | .oraAbsolute | .adcAbsolute | .cmpAbsolute
  | .cpyAbsolute | .decAbsolute | .lsrAbsolute | .jmpAbsolute | .jsrAbsolute => some .absolute
  | .beqRelative | .bneRelative => some .relative
  | .ldaAccumulator | .staAccumulator | .ldxAccumulator | .ldyAccumulator | .andAccumulator | .oraAccumulator | .adcAccumulator | .cmpAccumulator
  | .cpyAccumulator | .decAccumulator | .lsrAccumulator => some .accumulator
  | .ldaZeroPage | .staZeroPage | .ldxZeroPage | .ldyZeroPage | .andZeroPage | .oraZeroPage | .adcZeroPage | .cmpZeroPage
  | .cpyZeroPage | .decZeroPage | .lsrZeroPage => some .zeroPage
  | .ldaZeroPageIndexedX | .ldxZeroPageIndexedX | .ldyZeroPageIndexedX | .andZeroPageIndexedX | .oraZeroPageIndexedX | .adcZeroPageIndexedX | .cmpZeroPageIndexedX | .cpyZeroPageIndexedX => some .zeroPageIndexedX
  | .staZeroPageIndexedY => some .zeroPageIndexedY
  | .ldaZeroPageIndirectIndexedX | .ldxZeroPageIndirectIndexedX | .ldyZeroPageIndirectIndexedX | .andZeroPageIndirectIndexedX | .oraZeroPageIndirectIndexedX | .adcZeroPageIndirectIndexedX | .cmpZeroPageIndirectIndexedX | .cpyZeroPageIndirectIndexedX => some .zeroPageIndirectIndexedX
  | .staZeroPageIndirectIndexedY => some .zeroPageIndirectIndexedY
  | .txs _ | .dey _ | .rts _ | .sei _ | .cld _ | .clc _ | .sec _ => none

/-- The operand bytes an instruction has after its opcode byte (R61): those of each of its resolutions. -/
def Instr.operandBytes (i : Instr) : Nat :=
  match i.mode with
  | none => 0
  | some m => i.operation.accesses.length * m.operandBytes

/-- An instruction is well formed when its pair is admitted, or it has no mode and its operation ignores it (R72). -/
def Instr.wellFormed (i : Instr) : Bool :=
  match i.mode with
  | none => i.operation.ignoresMode
  | some m => admitted i.operation m

/-- A line is well formed when its instruction is and it has that instruction's operand bytes (R61, R80). -/
def Line.wellFormed (l : Line) : Bool :=
  l.instr.wellFormed && l.operands.length == l.instr.operandBytes

end Sys2Proof
end

