-- ==== Sys2Proof/Decode.lean ====
section
/-! DEFINITION. Decoding and encoding. The core decodes a 9-bit dispatch word (R64 to R67, R73 to R76); an opcode byte
stands for a dispatch word through the decoder map `DECODE` (R70, R71, R77); a line of assembly is an opcode byte and
operand bytes (R60, R61, R80). -/

namespace Sys2Proof

/-- The operation numbers of R64. -/
def Operation.number : Operation → BitVec 5
  | .lda => 0#5
  | .sta => 1#5
  | .ldx => 2#5
  | .ldy => 3#5
  | .txs => 4#5
  | .and => 5#5
  | .ora => 6#5
  | .adc => 7#5
  | .cmp => 8#5
  | .cpy => 9#5
  | .dec => 10#5
  | .dey => 11#5
  | .lsr => 12#5
  | .jmp => 13#5
  | .jsr => 14#5
  | .rts => 15#5
  | .beq => 16#5
  | .bne => 17#5
  | .sei => 18#5
  | .cld => 19#5
  | .clc => 20#5
  | .sec => 21#5

/-- The operation of a number; 22 to 31 name none (R64, R73). -/
def Operation.ofNumber (n : BitVec 5) : Option Operation :=
  match n.toNat with
  | 0 => some .lda
  | 1 => some .sta
  | 2 => some .ldx
  | 3 => some .ldy
  | 4 => some .txs
  | 5 => some .and
  | 6 => some .ora
  | 7 => some .adc
  | 8 => some .cmp
  | 9 => some .cpy
  | 10 => some .dec
  | 11 => some .dey
  | 12 => some .lsr
  | 13 => some .jmp
  | 14 => some .jsr
  | 15 => some .rts
  | 16 => some .beq
  | 17 => some .bne
  | 18 => some .sei
  | 19 => some .cld
  | 20 => some .clc
  | 21 => some .sec
  | _ => none

/-- The mode numbers of R65. -/
def Mode.number : Mode → BitVec 4
  | .immediate => 0#4
  | .absolute => 1#4
  | .relative => 2#4
  | .accumulator => 3#4
  | .zeroPage => 4#4
  | .zeroPageIndexedX => 5#4
  | .zeroPageIndexedY => 6#4
  | .zeroPageIndirectIndexedX => 7#4
  | .zeroPageIndirectIndexedY => 8#4

/-- The mode of a number; 9 to 15 name none (R65, R74). -/
def Mode.ofNumber (n : BitVec 4) : Option Mode :=
  match n.toNat with
  | 0 => some .immediate
  | 1 => some .absolute
  | 2 => some .relative
  | 3 => some .accumulator
  | 4 => some .zeroPage
  | 5 => some .zeroPageIndexedX
  | 6 => some .zeroPageIndexedY
  | 7 => some .zeroPageIndirectIndexedX
  | 8 => some .zeroPageIndirectIndexedY
  | _ => none

/-- The entry of the read table for a value-yielding mode (R65). -/
def ReadMode.ofMode : Mode → Option ReadMode
  | .immediate => some .immediate
  | .absolute => some .absolute
  | .accumulator => some .accumulator
  | .zeroPage => some .zeroPage
  | .zeroPageIndexedX => some .zeroPageIndexedX
  | .zeroPageIndirectIndexedX => some .zeroPageIndirectIndexedX
  | .relative | .zeroPageIndexedY | .zeroPageIndirectIndexedY => none

/-- The entry of the write table for a mode (R65). -/
def WriteMode.ofMode : Mode → Option WriteMode
  | .absolute => some .absolute
  | .accumulator => some .accumulator
  | .zeroPage => some .zeroPage
  | .zeroPageIndexedY => some .zeroPageIndexedY
  | .zeroPageIndirectIndexedY => some .zeroPageIndirectIndexedY
  | .immediate | .relative | .zeroPageIndexedX | .zeroPageIndirectIndexedX => none

/-- The modes in both the read and the write table (R72). -/
def RmwMode.ofMode : Mode → Option RmwMode
  | .absolute => some .absolute
  | .accumulator => some .accumulator
  | .zeroPage => some .zeroPage
  | .immediate | .relative | .zeroPageIndexedX | .zeroPageIndexedY | .zeroPageIndirectIndexedX
  | .zeroPageIndirectIndexedY => none

/-- The instruction with only mode Absolute, of JMP and JSR (R72). -/
def absoluteOnly (i : Instr) (m : Mode) : Option Instr := if m = .absolute then some i else none

/-- The instruction with only mode Relative, of BEQ and BNE (R72). -/
def relativeOnly (i : Instr) (m : Mode) : Option Instr := if m = .relative then some i else none

/-- The instruction of an operation and a mode number, where the pair is admitted (R66, R67, R72). The seven mode-less
operations take every mode number. -/
def instrOf (op : Operation) (m : BitVec 4) : Option Instr :=
  match op with
  | .lda => (Mode.ofNumber m).bind ReadMode.ofMode |>.map Instr.lda
  | .sta => (Mode.ofNumber m).bind WriteMode.ofMode |>.map Instr.sta
  | .ldx => (Mode.ofNumber m).bind ReadMode.ofMode |>.map Instr.ldx
  | .ldy => (Mode.ofNumber m).bind ReadMode.ofMode |>.map Instr.ldy
  | .txs => some (.txs m)
  | .and => (Mode.ofNumber m).bind ReadMode.ofMode |>.map Instr.and
  | .ora => (Mode.ofNumber m).bind ReadMode.ofMode |>.map Instr.ora
  | .adc => (Mode.ofNumber m).bind ReadMode.ofMode |>.map Instr.adc
  | .cmp => (Mode.ofNumber m).bind ReadMode.ofMode |>.map Instr.cmp
  | .cpy => (Mode.ofNumber m).bind ReadMode.ofMode |>.map Instr.cpy
  | .dec => (Mode.ofNumber m).bind RmwMode.ofMode |>.map Instr.dec
  | .dey => some (.dey m)
  | .lsr => (Mode.ofNumber m).bind RmwMode.ofMode |>.map Instr.lsr
  | .jmp => (Mode.ofNumber m).bind (absoluteOnly .jmpAbsolute)
  | .jsr => (Mode.ofNumber m).bind (absoluteOnly .jsrAbsolute)
  | .rts => some (.rts m)
  | .beq => (Mode.ofNumber m).bind (relativeOnly .beqRelative)
  | .bne => (Mode.ofNumber m).bind (relativeOnly .bneRelative)
  | .sei => some (.sei m)
  | .cld => some (.cld m)
  | .clc => some (.clc m)
  | .sec => some (.sec m)

/-- `DW[8:4]`, the operation number (R66). -/
def opField (dw : DispatchWord) : BitVec 5 := dw.extractLsb' 4 5

/-- `DW[3:0]`, the mode number (R66). -/
def modeField (dw : DispatchWord) : BitVec 4 := dw.extractLsb' 0 4

/-- The instruction of a dispatch word, or the decode fault it raises (R66): operation numbers 22 to 31 are
`UnknownOpcode` (R73); mode numbers 9 to 15 and pairs that are not admitted are `IllegalModeAccess` (R74, R75). -/
def decode (dw : DispatchWord) : Except DecodeFault Instr :=
  match Operation.ofNumber (opField dw) with
  | none => .error ⟨.unknownOpcode, dw⟩
  | some op =>
    match instrOf op (modeField dw) with
    | none => .error ⟨.illegalModeAccess, dw⟩
    | some i => .ok i

/-- The mode bits of an instruction's dispatch word: its mode's number, or the ignored bits it carries (R65, R67). -/
def Instr.modeBits (i : Instr) : BitVec 4 :=
  match i with
  | .txs m | .dey m | .rts m | .sei m | .cld m | .clc m | .sec m => m
  | i => (i.mode.map Mode.number).getD 0#4

/-- The dispatch word of an instruction (R66). -/
def encode (i : Instr) : DispatchWord := i.operation.number ++ i.modeBits

/-- The format of an instruction (R61). -/
def Instr.format (i : Instr) : Format :=
  match i.operandBytes, i.operation.accesses.length with
  | 0, _ => .f0
  | 1, _ => .f1
  | 2, 1 => .f2
  | 2, _ => .f1r
  | _, _ => .f2r

/-- The length of an instruction in bytes, the opcode byte included (R61, R68). -/
def Instr.length (i : Instr) : Nat := 1 + i.operandBytes

/-- The dispatch word an opcode byte stands for under a decoder map; none outside its domain (R70). -/
def DecodeMap.lookup : DecodeMap → Byte → Option DispatchWord
  | [], _ => none
  | (c, dw) :: rest, b => if c = b then some dw else lookup rest b

/-- The instruction of an opcode byte under a decoder map, or the decode fault it raises: a byte outside the domain is
`UnknownOpcode` with the byte, zero-extended (R77, R171). -/
def decodeByte (map : DecodeMap) (b : Byte) : Except DecodeFault Instr :=
  match map.lookup b with
  | none => .error ⟨.unknownOpcode, b.zeroExtend 9⟩
  | some dw => decode dw

/-- An opcode byte that stands for a dispatch word under a decoder map, if there is one. -/
def DecodeMap.byteFor (map : DecodeMap) (dw : DispatchWord) : Option Byte :=
  (map.find? (fun e => e.2 == dw && map.lookup e.1 == some dw)).map (·.1)

/-- Is a dispatch word one of an admitted instruction? -/
def isAdmittedWord (dw : DispatchWord) : Bool :=
  match decode dw with
  | .ok _ => true
  | .error _ => false

/-- The requirement of R70 on any instance of `DECODE`: its range lies inside the admitted set, and (it is a partial
map) no byte is listed twice. -/
def DecodeMap.wellFormed (map : DecodeMap) : Bool :=
  map.all (fun e => isAdmittedWord e.2) && decide (map.map (·.1)).Nodup

/-- A part of `DECODE_6502` (R71). -/
def decode6502Part1 : DecodeMap :=
  [(0xA9#8, 0x000#9), (0xAD#8, 0x001#9), (0xA5#8, 0x004#9), (0xB5#8, 0x005#9),
   (0x8D#8, 0x011#9), (0x85#8, 0x014#9), (0x91#8, 0x018#9)]

/-- A part of `DECODE_6502` (R71). -/
def decode6502Part2 : DecodeMap :=
  [(0xA2#8, 0x020#9), (0xAE#8, 0x021#9), (0xA6#8, 0x024#9), (0xA0#8, 0x030#9),
   (0xAC#8, 0x031#9), (0xA4#8, 0x034#9), (0xB4#8, 0x035#9)]

/-- A part of `DECODE_6502` (R71). -/
def decode6502Part3 : DecodeMap :=
  [(0x9A#8, 0x040#9), (0x29#8, 0x050#9), (0x2D#8, 0x051#9), (0x25#8, 0x054#9),
   (0x35#8, 0x055#9), (0x09#8, 0x060#9), (0x0D#8, 0x061#9)]

/-- A part of `DECODE_6502` (R71). -/
def decode6502Part4 : DecodeMap :=
  [(0x05#8, 0x064#9), (0x15#8, 0x065#9), (0x69#8, 0x070#9), (0x6D#8, 0x071#9),
   (0x65#8, 0x074#9), (0x75#8, 0x075#9), (0xC9#8, 0x080#9)]

/-- A part of `DECODE_6502` (R71). -/
def decode6502Part5 : DecodeMap :=
  [(0xCD#8, 0x081#9), (0xC5#8, 0x084#9), (0xD5#8, 0x085#9), (0xC0#8, 0x090#9),
   (0xCC#8, 0x091#9), (0xC4#8, 0x094#9), (0xCE#8, 0x0A1#9)]

/-- A part of `DECODE_6502` (R71). -/
def decode6502Part6 : DecodeMap :=
  [(0xC6#8, 0x0A4#9), (0x88#8, 0x0B0#9), (0x4E#8, 0x0C1#9), (0x4A#8, 0x0C3#9),
   (0x46#8, 0x0C4#9), (0x4C#8, 0x0D1#9), (0x20#8, 0x0E1#9)]

/-- A part of `DECODE_6502` (R71). -/
def decode6502Part7 : DecodeMap :=
  [(0x60#8, 0x0F0#9), (0xF0#8, 0x102#9), (0xD0#8, 0x112#9), (0x78#8, 0x120#9),
   (0xD8#8, 0x130#9), (0x18#8, 0x140#9), (0x38#8, 0x150#9)]

/-- The default decoder map `DECODE_6502`, 49 entries (R71); mode-less operations are given mode 0 (D23). -/
def decode6502 : DecodeMap :=
  decode6502Part1 ++ decode6502Part2 ++ decode6502Part3 ++ decode6502Part4 ++ decode6502Part5 ++ decode6502Part6 ++ decode6502Part7

/-- Ten rows of the opcode table (R82). -/
def opcodeTablePart1 : List OpcodeRow :=
  [⟨"LDA", some .immediate, .f1, 0x000#9, 0x1FF#9, 2, some 0xA9#8⟩,
   ⟨"LDA", some .absolute, .f2, 0x001#9, 0x1FF#9, 3, some 0xAD#8⟩,
   ⟨"LDA", some .accumulator, .f0, 0x003#9, 0x1FF#9, 1, none⟩,
   ⟨"LDA", some .zeroPage, .f1, 0x004#9, 0x1FF#9, 2, some 0xA5#8⟩,
   ⟨"LDA", some .zeroPageIndexedX, .f1, 0x005#9, 0x1FF#9, 2, some 0xB5#8⟩,
   ⟨"LDA", some .zeroPageIndirectIndexedX, .f1, 0x007#9, 0x1FF#9, 2, none⟩,
   ⟨"STA", some .absolute, .f2, 0x011#9, 0x1FF#9, 3, some 0x8D#8⟩,
   ⟨"STA", some .accumulator, .f0, 0x013#9, 0x1FF#9, 1, none⟩,
   ⟨"STA", some .zeroPage, .f1, 0x014#9, 0x1FF#9, 2, some 0x85#8⟩,
   ⟨"STA", some .zeroPageIndexedY, .f1, 0x016#9, 0x1FF#9, 2, none⟩]

/-- Ten rows of the opcode table (R82). -/
def opcodeTablePart2 : List OpcodeRow :=
  [⟨"STA", some .zeroPageIndirectIndexedY, .f1, 0x018#9, 0x1FF#9, 2, some 0x91#8⟩,
   ⟨"LDX", some .immediate, .f1, 0x020#9, 0x1FF#9, 2, some 0xA2#8⟩,
   ⟨"LDX", some .absolute, .f2, 0x021#9, 0x1FF#9, 3, some 0xAE#8⟩,
   ⟨"LDX", some .accumulator, .f0, 0x023#9, 0x1FF#9, 1, none⟩,
   ⟨"LDX", some .zeroPage, .f1, 0x024#9, 0x1FF#9, 2, some 0xA6#8⟩,
   ⟨"LDX", some .zeroPageIndexedX, .f1, 0x025#9, 0x1FF#9, 2, none⟩,
   ⟨"LDX", some .zeroPageIndirectIndexedX, .f1, 0x027#9, 0x1FF#9, 2, none⟩,
   ⟨"LDY", some .immediate, .f1, 0x030#9, 0x1FF#9, 2, some 0xA0#8⟩,
   ⟨"LDY", some .absolute, .f2, 0x031#9, 0x1FF#9, 3, some 0xAC#8⟩,
   ⟨"LDY", some .accumulator, .f0, 0x033#9, 0x1FF#9, 1, none⟩]

/-- Ten rows of the opcode table (R82). -/
def opcodeTablePart3 : List OpcodeRow :=
  [⟨"LDY", some .zeroPage, .f1, 0x034#9, 0x1FF#9, 2, some 0xA4#8⟩,
   ⟨"LDY", some .zeroPageIndexedX, .f1, 0x035#9, 0x1FF#9, 2, some 0xB4#8⟩,
   ⟨"LDY", some .zeroPageIndirectIndexedX, .f1, 0x037#9, 0x1FF#9, 2, none⟩,
   ⟨"TXS", none, .f0, 0x040#9, 0x1F0#9, 1, some 0x9A#8⟩,
   ⟨"AND", some .immediate, .f1, 0x050#9, 0x1FF#9, 2, some 0x29#8⟩,
   ⟨"AND", some .absolute, .f2, 0x051#9, 0x1FF#9, 3, some 0x2D#8⟩,
   ⟨"AND", some .accumulator, .f0, 0x053#9, 0x1FF#9, 1, none⟩,
   ⟨"AND", some .zeroPage, .f1, 0x054#9, 0x1FF#9, 2, some 0x25#8⟩,
   ⟨"AND", some .zeroPageIndexedX, .f1, 0x055#9, 0x1FF#9, 2, some 0x35#8⟩,
   ⟨"AND", some .zeroPageIndirectIndexedX, .f1, 0x057#9, 0x1FF#9, 2, none⟩]

/-- Ten rows of the opcode table (R82). -/
def opcodeTablePart4 : List OpcodeRow :=
  [⟨"ORA", some .immediate, .f1, 0x060#9, 0x1FF#9, 2, some 0x09#8⟩,
   ⟨"ORA", some .absolute, .f2, 0x061#9, 0x1FF#9, 3, some 0x0D#8⟩,
   ⟨"ORA", some .accumulator, .f0, 0x063#9, 0x1FF#9, 1, none⟩,
   ⟨"ORA", some .zeroPage, .f1, 0x064#9, 0x1FF#9, 2, some 0x05#8⟩,
   ⟨"ORA", some .zeroPageIndexedX, .f1, 0x065#9, 0x1FF#9, 2, some 0x15#8⟩,
   ⟨"ORA", some .zeroPageIndirectIndexedX, .f1, 0x067#9, 0x1FF#9, 2, none⟩,
   ⟨"ADC", some .immediate, .f1, 0x070#9, 0x1FF#9, 2, some 0x69#8⟩,
   ⟨"ADC", some .absolute, .f2, 0x071#9, 0x1FF#9, 3, some 0x6D#8⟩,
   ⟨"ADC", some .accumulator, .f0, 0x073#9, 0x1FF#9, 1, none⟩,
   ⟨"ADC", some .zeroPage, .f1, 0x074#9, 0x1FF#9, 2, some 0x65#8⟩]

/-- Ten rows of the opcode table (R82). -/
def opcodeTablePart5 : List OpcodeRow :=
  [⟨"ADC", some .zeroPageIndexedX, .f1, 0x075#9, 0x1FF#9, 2, some 0x75#8⟩,
   ⟨"ADC", some .zeroPageIndirectIndexedX, .f1, 0x077#9, 0x1FF#9, 2, none⟩,
   ⟨"CMP", some .immediate, .f1, 0x080#9, 0x1FF#9, 2, some 0xC9#8⟩,
   ⟨"CMP", some .absolute, .f2, 0x081#9, 0x1FF#9, 3, some 0xCD#8⟩,
   ⟨"CMP", some .accumulator, .f0, 0x083#9, 0x1FF#9, 1, none⟩,
   ⟨"CMP", some .zeroPage, .f1, 0x084#9, 0x1FF#9, 2, some 0xC5#8⟩,
   ⟨"CMP", some .zeroPageIndexedX, .f1, 0x085#9, 0x1FF#9, 2, some 0xD5#8⟩,
   ⟨"CMP", some .zeroPageIndirectIndexedX, .f1, 0x087#9, 0x1FF#9, 2, none⟩,
   ⟨"CPY", some .immediate, .f1, 0x090#9, 0x1FF#9, 2, some 0xC0#8⟩,
   ⟨"CPY", some .absolute, .f2, 0x091#9, 0x1FF#9, 3, some 0xCC#8⟩]

/-- Ten rows of the opcode table (R82). -/
def opcodeTablePart6 : List OpcodeRow :=
  [⟨"CPY", some .accumulator, .f0, 0x093#9, 0x1FF#9, 1, none⟩,
   ⟨"CPY", some .zeroPage, .f1, 0x094#9, 0x1FF#9, 2, some 0xC4#8⟩,
   ⟨"CPY", some .zeroPageIndexedX, .f1, 0x095#9, 0x1FF#9, 2, none⟩,
   ⟨"CPY", some .zeroPageIndirectIndexedX, .f1, 0x097#9, 0x1FF#9, 2, none⟩,
   ⟨"DEC", some .absolute, .f2r, 0x0A1#9, 0x1FF#9, 5, some 0xCE#8⟩,
   ⟨"DEC", some .accumulator, .f0, 0x0A3#9, 0x1FF#9, 1, none⟩,
   ⟨"DEC", some .zeroPage, .f1r, 0x0A4#9, 0x1FF#9, 3, some 0xC6#8⟩,
   ⟨"DEY", none, .f0, 0x0B0#9, 0x1F0#9, 1, some 0x88#8⟩,
   ⟨"LSR", some .absolute, .f2r, 0x0C1#9, 0x1FF#9, 5, some 0x4E#8⟩,
   ⟨"LSR", some .accumulator, .f0, 0x0C3#9, 0x1FF#9, 1, some 0x4A#8⟩]

/-- Ten rows of the opcode table (R82). -/
def opcodeTablePart7 : List OpcodeRow :=
  [⟨"LSR", some .zeroPage, .f1r, 0x0C4#9, 0x1FF#9, 3, some 0x46#8⟩,
   ⟨"JMP", some .absolute, .f2, 0x0D1#9, 0x1FF#9, 3, some 0x4C#8⟩,
   ⟨"JSR", some .absolute, .f2, 0x0E1#9, 0x1FF#9, 3, some 0x20#8⟩,
   ⟨"RTS", none, .f0, 0x0F0#9, 0x1F0#9, 1, some 0x60#8⟩,
   ⟨"BEQ", some .relative, .f1, 0x102#9, 0x1FF#9, 2, some 0xF0#8⟩,
   ⟨"BNE", some .relative, .f1, 0x112#9, 0x1FF#9, 2, some 0xD0#8⟩,
   ⟨"SEI", none, .f0, 0x120#9, 0x1F0#9, 1, some 0x78#8⟩,
   ⟨"CLD", none, .f0, 0x130#9, 0x1F0#9, 1, some 0xD8#8⟩,
   ⟨"CLC", none, .f0, 0x140#9, 0x1F0#9, 1, some 0x18#8⟩,
   ⟨"SEC", none, .f0, 0x150#9, 0x1F0#9, 1, some 0x38#8⟩]

/-- The opcode table, one row per admitted instruction (R82), as spec/opcode_table.json lists it. -/
def opcodeTable : List OpcodeRow :=
  opcodeTablePart1 ++ opcodeTablePart2 ++ opcodeTablePart3 ++ opcodeTablePart4 ++ opcodeTablePart5 ++ opcodeTablePart6 ++ opcodeTablePart7

/-- Does a dispatch word belong to a row: `DW & mask == match` (R82)? -/
def OpcodeRow.fits (r : OpcodeRow) (dw : DispatchWord) : Bool := dw &&& r.mask == r.matchWord

/-- The mnemonic of an operation. -/
def Operation.mnemonic : Operation → String
  | .lda => "LDA"
  | .sta => "STA"
  | .ldx => "LDX"
  | .ldy => "LDY"
  | .txs => "TXS"
  | .and => "AND"
  | .ora => "ORA"
  | .adc => "ADC"
  | .cmp => "CMP"
  | .cpy => "CPY"
  | .dec => "DEC"
  | .dey => "DEY"
  | .lsr => "LSR"
  | .jmp => "JMP"
  | .jsr => "JSR"
  | .rts => "RTS"
  | .beq => "BEQ"
  | .bne => "BNE"
  | .sei => "SEI"
  | .cld => "CLD"
  | .clc => "CLC"
  | .sec => "SEC"

/-- Why a sequence of bytes is no line of assembly. -/
inductive LineError where
  /-- The opcode byte raises a decode fault. -/
  | fault (f : DecodeFault)
  /-- The bytes end before the line does. -/
  | truncated
deriving DecidableEq, Repr

/-- The bytes of a line in memory: an opcode byte that stands for its instruction, then its operand bytes (R60, R80);
none where the decoder map has no byte for the instruction. -/
def encodeLine (map : DecodeMap) (l : Line) : Option (List Byte) :=
  (map.byteFor (encode l.instr)).map (fun b => b :: l.operands)

/-- The line at the head of a sequence of bytes, and the bytes after it (R60, R61). -/
def decodeLine (map : DecodeMap) : List Byte → Except LineError (Line × List Byte)
  | [] => .error .truncated
  | b :: rest =>
    match decodeByte map b with
    | .error f => .error (.fault f)
    | .ok i =>
      if rest.length < i.operandBytes then .error .truncated
      else .ok (⟨i, rest.take i.operandBytes⟩, rest.drop i.operandBytes)

/-- The instruction the decoder reads from a row's word, numbered as spec/opcode_table.json numbers it: the word is
the 9-bit dispatch word (R66, R82), so a word with a bit above bit 8 is refused. -/
def decodeTableWord (nbits w : Nat) : Option Instr :=
  if w < 2 ^ nbits ∧ w < 512 then (decode (BitVec.ofNat 9 w)).toOption else none

end Sys2Proof
end

