-- ==== Sys2Proof/Machine/State.lean ====
section
/-! DEFINITION. The state of the machine as plain data (10_state.md): the six registers of R10, the pending interrupt
kinds of R27, the fault latch of R28, the memory agent behind the read/write boundary (R29, R40, R56), the open
parameters `DECODE` and `INT_RESPONSE` carried along (R31, R70, R178), and the memory transactions of the most recent
step. INVENTORY.md lists them. -/

namespace Sys2Proof.Machine

/-- The open enumeration of interrupt kinds (R27, R176): the one certain member, and any others. -/
inductive IntKind where
  | nmi
  | other (n : Nat)
deriving DecidableEq, Repr

/-- A key that orders the kinds, so that a set of kinds has one listing. -/
def IntKind.key : IntKind → Nat
  | .nmi => 0
  | .other n => n + 1

/-- One memory transaction of the core, as the memory agent sees it (R41, R42): a read and its answer, or a write. -/
inductive Transaction where
  | read (address : Addr) (value : Byte)
  | write (address : Addr) (value : Byte)
deriving DecidableEq, Repr

/-- The bytes a memory agent stores (R56): the locations that hold something else than an unlisted location does, by
rising address. -/
abbrev Memory := List Host.Cell

/-- Every address listed is above `bound`'s predecessor and they rise strictly; every address is one of the 65536
(R29); no entry equals what an unlisted address reads as. -/
def Memory.wfFrom (bound : Nat) : Memory → Bool
  | [] => true
  | (a, v) :: rest =>
    decide (bound ≤ a) && decide (a < 65536) && (v != Config.unlistedByte) && wfFrom (a + 1) rest

/-- The one canonical form of a memory. -/
def Memory.wf (m : Memory) : Bool := Memory.wfFrom 0 m

/-- What answers an access in a region of the address space (R40: the agent owns routing). -/
inductive RegionKind where
  /-- Stored bytes: the cell at `target` plus the offset in the region modulo `modulus`; where it is not writable a
  write is discarded. -/
  | cells (target modulus : Nat) (writable : Bool)
  /-- Agent number `id`, of which nothing is known: a read of it may have an effect (R40, R48). -/
  | device (id : Nat)
deriving DecidableEq, Repr

/-- A region of the address space, from its first to its last address. -/
structure Region where
  first : Nat
  last  : Nat
  kind  : RegionKind
deriving DecidableEq, Repr

/-- The memory agent `MEM` (R40): its routing, a parameter fixed for a run (R31), the bytes it stores and the state of
what is no plain storage. An address in no region is plain RAM, so that the empty map is the spec's default agent
(R56), and one device over the whole space is an arbitrary agent (log 2). -/
structure MemAgent where
  map    : List Region
  cells  : Memory
  device : List Nat
deriving DecidableEq, Repr

/-- Which interrupt response is connected (`INT_RESPONSE`, R178): the default, or response number `id`, of which nothing
is known (log 6). -/
inductive IntResponse where
  | refuse
  | external (id : Nat)
deriving DecidableEq, Repr

/-- The one canonical form of a set of pending kinds: strictly rising keys. -/
def pendingWf (ks : List IntKind) : Bool := decide (ks.Pairwise (fun j k => j.key < k.key))

/-- The whole state (10_state.md R10, R27 to R29, R31). -/
structure State where
  /-- `PC`, the program counter (R15, R16). -/
  pc : Addr
  /-- `A`, the accumulator (R11). -/
  a : Byte
  /-- `X`, an index register (R12). -/
  x : Byte
  /-- `Y`, an index register (R13). -/
  y : Byte
  /-- `SP`, the stack pointer (R14). -/
  sp : Byte
  /-- `P`, the status register: six named flags and two unnamed bits (R18, R25). -/
  p : Byte
  /-- `PENDING`, the pending interrupt kinds (R27). -/
  pending : List IntKind
  /-- `FAULT`, the fault latch (R28). -/
  fault : Option DecodeFault
  /-- The memory agent (R29, R40, R56). -/
  mem : MemAgent
  /-- `DECODE`, an open parameter of the model, never written by a step (R31, R70; log 4). -/
  decodeMap : DecodeMap
  /-- `INT_RESPONSE`, an open parameter of the model, never written by a step (R178; log 6). -/
  response : IntResponse
  /-- The model's own field (log 5): the memory transactions of the most recent step, oldest first. -/
  bus : List Transaction
deriving DecidableEq, Repr

/-- The open parameter `INIT`: the launch values of the registers (R30). -/
structure Init where
  pc : Addr
  a  : Byte
  x  : Byte
  y  : Byte
  sp : Byte
  p  : Byte
deriving DecidableEq, Repr

/-- The spec's default agent, plain RAM of 65536 bytes (R56). -/
def MemAgent.plainRam (cells : Memory) : MemAgent := { map := [], cells := cells, device := [] }

/-- The launch state (R30, R190): registers from `INIT`, nothing pending, no fault, the connected memory agent, decoder
map and interrupt response. -/
def State.launch (init : Init) (mem : MemAgent) (map : DecodeMap) (response : IntResponse) : State :=
  { pc := init.pc, a := init.a, x := init.x, y := init.y, sp := init.sp, p := init.p
    pending := [], fault := none, mem := mem, decodeMap := map, response := response, bus := [] }

/-- DESIGN CHOICE (log 1), unsafe: the launch values `State.reset` takes. The spec gives none (R30). -/
def Init.zero : Init := { pc := 0x0000#16, a := 0x00#8, x := 0x00#8, y := 0x00#8, sp := 0x00#8, p := 0x00#8 }

/-- The machine right after reset (R30, R190): nothing pending, no fault, no memory listed; registers of `Init.zero`
(log 1); the spec's defaults for the open parameters: plain RAM (R56), `DECODE_6502` (R71; log 4), refuse (R178). -/
def State.reset : State := State.launch Init.zero (MemAgent.plainRam []) decode6502 .refuse

/-- Why a step could stop the machine with a fault. It has no constructor: the one synchronous exception of the core,
the decode fault, is taken into a next state with `FAULT` latched (R170, R173), and nothing else faults (R175). -/
inductive Fault where
deriving DecidableEq, Repr

/-- Why a step has no meaning. -/
inductive Refusal where
  /-- Raised by an arm of `exec` for an instruction that has no meaning yet; no arm does. Safe. -/
  | notModelled (mnemonic : String)
  /-- Raised by `step` at an instruction boundary with a kind pending, where the connected `INT_RESPONSE` is the default,
  which refuses the run, or one that gives no state (R178; log 6). Safe: nothing is proved about such a run. -/
  | pendingInterrupt (kind : IntKind)
deriving DecidableEq, Repr

/-! One update per field; Laws/State.lean says of each what it leaves. -/

def State.setPc (s : State) (v : Addr) : State := { s with pc := v }
def State.setA (s : State) (v : Byte) : State := { s with a := v }
def State.setX (s : State) (v : Byte) : State := { s with x := v }
def State.setY (s : State) (v : Byte) : State := { s with y := v }
def State.setSp (s : State) (v : Byte) : State := { s with sp := v }
def State.setP (s : State) (v : Byte) : State := { s with p := v }
def State.setPending (s : State) (v : List IntKind) : State := { s with pending := v }
def State.setFault (s : State) (v : Option DecodeFault) : State := { s with fault := v }
def State.setMem (s : State) (v : MemAgent) : State := { s with mem := v }
def State.setDecodeMap (s : State) (v : DecodeMap) : State := { s with decodeMap := v }
def State.setResponse (s : State) (v : IntResponse) : State := { s with response := v }
def State.setBus (s : State) (v : List Transaction) : State := { s with bus := v }

end Sys2Proof.Machine

namespace Sys2Proof

/-- `INT_RESPONSE : State × IntKind → Outcome` (R178), by the response's number: the state it leaves, or none where it
refuses the run. Open (log 6): nothing constrains it. -/
opaque Config.intResponse : Nat → Machine.State → Machine.IntKind → Option Machine.State

end Sys2Proof
end

