-- ==== Sys2Proof/Machine/Ops.lean ====
section
/-! DEFINITION. The named operations over memory and registers: the read/write boundary (R41, R42), the halves of `PC`
(R6, R15), the memory agent (R40), the stack primitives (R93, R94), the 16-bit read (R95), the opcode fetch (R78),
taking the decode fault (R170), and the actions of the environment (R176, R178, R191, R192). -/

namespace Sys2Proof.Machine

/-! ### Values -/

/-- `zext_16(v)` (R6). -/
def zext16 (v : Byte) : Addr := v.zeroExtend 16

/-- `sext_16(v)` (R6): `0xFF00 + v` where bit 7 is set, else `v`. -/
def sext16 (v : Byte) : Addr := if v.getLsbD 7 then 0xFF00#16 + v.zeroExtend 16 else v.zeroExtend 16

/-- `hi ‖ lo` (R5, R44): the 16-bit value of two bytes. -/
def word16 (lo hi : Byte) : Addr := hi ++ lo

/-- Bits 15:8 of a 16-bit value; of `PC` it is `PCH` (R6). -/
def highByte (w : Addr) : Byte := w.extractLsb' 8 8

/-- Bits 7:0 of a 16-bit value; of `PC` it is `PCL` (R6). -/
def lowByte (w : Addr) : Byte := w.extractLsb' 0 8

/-- `STACK_BASE`, the address of stack slot 0 (R4, R14). -/
def stackBase : Addr := 0x0100#16

/-! ### The memory agent (R40, R56) -/

/-- The byte at an address; an unlisted address reads as `Config.unlistedByte` (log 3). -/
def Memory.read : Memory → Nat → Byte
  | [], _ => Config.unlistedByte
  | (b, w) :: rest, a => if b = a then w else Memory.read rest a

/-- A cell before a memory, unless it says what an unlisted address reads as. -/
def Memory.cons (a : Nat) (v : Byte) (m : Memory) : Memory := if v = Config.unlistedByte then m else (a, v) :: m

/-- Replace the byte at an address, keeping the canonical form. -/
def Memory.write : Memory → Nat → Byte → Memory
  | [], a, v => Memory.cons a v []
  | (b, w) :: rest, a, v =>
    if a < b then Memory.cons a v ((b, w) :: rest)
    else if a = b then Memory.cons a v rest
    else (b, w) :: Memory.write rest a v

/-- Where an access at an address goes. -/
inductive Route where
  | cell (n : Nat) (writable : Bool)
  | device (id : Nat)
deriving DecidableEq, Repr

/-- The routing of an agent: the first region that holds the address; in no region, plain RAM. -/
def route : List Region → Nat → Route
  | [], a => .cell a true
  | r :: rest, a =>
    if r.first ≤ a ∧ a ≤ r.last then
      match r.kind with
      | .cells target modulus writable => .cell ((target + (a - r.first) % modulus) % 65536) writable
      | .device id => .device id
    else route rest a

/-- A region that reads as stored and discards writes. -/
def Region.rom (first last : Nat) : Region := ⟨first, last, .cells first 65536 false⟩

/-- A region that stands for the `modulus` bytes from `target` on, over and over. -/
def Region.mirror (first last target modulus : Nat) : Region := ⟨first, last, .cells target modulus true⟩

/-- `MEM.read` (R40): the byte the agent answers, and the agent after. -/
def MemAgent.read (g : MemAgent) (a : Addr) : Byte × MemAgent :=
  match route g.map a.toNat with
  | .cell n _ => (g.cells.read n, g)
  | .device id =>
    let r := Config.deviceRead id g.device a
    (r.1, { g with device := r.2 })

/-- `MEM.write` (R40): the agent after. -/
def MemAgent.write (g : MemAgent) (a : Addr) (v : Byte) : MemAgent :=
  match route g.map a.toNat with
  | .cell n true => { g with cells := g.cells.write n v }
  | .cell _ false => g
  | .device id => { g with device := Config.deviceWrite id g.device a v }

/-- The agent after it has served a list of transactions; none where some read was not answered as the list says. -/
def MemAgent.serve : MemAgent → List Transaction → Option MemAgent
  | g, [] => some g
  | g, .read a v :: rest => if (g.read a).1 = v then (g.read a).2.serve rest else none
  | g, .write a v :: rest => (g.write a v).serve rest

/-- Append a transaction to those of the current step (log 5). -/
def logTransaction (t : Transaction) (s : State) : State := s.setBus (s.bus ++ [t])

/-- `MemRead(a)` (R41): one read transaction. -/
def memRead (a : Addr) (s : State) : Byte × State :=
  let r := s.mem.read a
  (r.1, logTransaction (.read a r.1) (s.setMem r.2))

/-- `MemWrite(a, v)` (R42): one write transaction, complete before the next. -/
def memWrite (a : Addr) (v : Byte) (s : State) : State :=
  logTransaction (.write a v) (s.setMem (s.mem.write a v))

/-! ### Registers -/

/-- `PC <- (PC + n) mod 2^16` (R17). -/
def advancePc (n : Addr) (s : State) : State := s.setPc (s.pc + n)

/-- `PCL <- v`: bits 7:0 are written and bits 15:8 are left (R6). -/
def setPcl (v : Byte) (s : State) : State := s.setPc (word16 v (highByte s.pc))

/-- `PCH <- v`: bits 15:8 are written and bits 7:0 are left (R6). -/
def setPch (v : Byte) (s : State) : State := s.setPc (word16 (lowByte s.pc) v)

/-- `Push(v)` (R93): write at the stack slot, then decrement `SP` modulo 256. -/
def push (v : Byte) (s : State) : State :=
  let s1 := memWrite (stackBase + zext16 s.sp) v s
  s1.setSp (s1.sp - 1)

/-- `Pull()` (R94): increment `SP` modulo 256, then read the stack slot. -/
def pull (s : State) : Byte × State :=
  let s1 := s.setSp (s.sp + 1)
  memRead (stackBase + zext16 s1.sp) s1

/-- `Read16(a)` (R95): two reads, low byte first; `a + 1` wraps. -/
def read16 (a : Addr) (s : State) : Addr × State :=
  let (lo, s1) := memRead a s
  let (hi, s2) := memRead (a + 1) s1
  (word16 lo hi, s2)

/-- Read the byte at `PC` and move `PC` past it (R16, R97). -/
def fetchByte (s : State) : Byte × State :=
  let (b, s1) := memRead s.pc s
  (b, advancePc 1 s1)

/-- The opcode fetch that begins a step (R78): `b <- MemRead(PC)`, `PC <- PC + 1`. The list of the step's transactions
starts here (log 5). -/
def fetchOpcode (s : State) : Byte × State := fetchByte (s.setBus [])

/-! ### Taking the decode fault -/

/-- `raise DecodeFault(cause, info)` (R170): `FAULT <- (cause, info)`. Nothing is saved and control goes nowhere (R181):
`PC` stays one past the opcode byte (R173) and the core is halted (R174). There is no return from it: only
`initializeRegisters` clears the latch (R182, R191). -/
def raiseDecodeFault (f : DecodeFault) (s : State) : State := s.setFault (some f)

/-- The numeric code of the fault latch (R171). -/
def faultCode : Option DecodeFault → Nat
  | none => 0
  | some ⟨.unknownOpcode, _⟩ => 1
  | some ⟨.illegalModeAccess, _⟩ => 2

/-! ### The environment (00_scope.md R8) -/

/-- Add a kind to a set of pending kinds. -/
def insertKind (k : IntKind) : List IntKind → List IntKind
  | [] => [k]
  | j :: rest => if k.key < j.key then k :: j :: rest else if k.key = j.key then j :: rest else j :: insertKind k rest

/-- A memory from cells in any order: the first for an address counts, addresses modulo 2^16. -/
def Memory.ofCells (cells : List Host.Cell) : Memory := cells.foldr (fun c m => m.write (c.1 % 65536) c.2) []

/-- A state an interrupt response gives, taken as the next state after `s`: data in canonical form, and the parameters of
the run as they were (R31). -/
def takeResponse (s r : State) : State :=
  { r with mem := { map := s.mem.map, cells := Memory.ofCells r.mem.cells, device := r.mem.device }
           pending := r.pending.foldr insertKind [], decodeMap := s.decodeMap, response := s.response }

/-- `INT_RESPONSE` (R178; log 6): refuse, by default; else what the connected response says. -/
def intResponse (k : IntKind) (s : State) : Host.Outcome State Fault Refusal :=
  match s.response with
  | .refuse => .refused (.pendingInterrupt k)
  | .external id =>
    match Config.intResponse id s k with
    | some r => .next (takeResponse s r)
    | none => .refused (.pendingInterrupt k)

/-- The environment sets a kind pending (R27, R176). -/
def raiseInterrupt (k : IntKind) (s : State) : State := s.setPending (insertKind k s.pending)

/-- "Initialize registers" (R191): every register from a fresh `INIT`, `FAULT` and `PENDING` cleared, memory untouched,
no transaction. -/
def initializeRegisters (init : Init) (s : State) : State :=
  { s with pc := init.pc, a := init.a, x := init.x, y := init.y, sp := init.sp, p := init.p
           pending := [], fault := none }

/-- "Connect a memory configuration" (R192), done before the first step. -/
def connectMemory (g : MemAgent) (s : State) : State := s.setMem g

/-- Connect an interrupt response (R178), a parameter of the run. -/
def connectResponse (r : IntResponse) (s : State) : State := s.setResponse r

end Sys2Proof.Machine
end

