-- ==== Sys2Proof/Machine/Flags.lean ====
section
/-! DEFINITION. The status register (R18 to R25, R88 to R92), the arithmetic helpers (R85 to R87), and every flag
computation of the handlers (R92, R132 to R134, R140). -/

namespace Sys2Proof.Machine

/-- The six named flags (R18). -/
inductive Flag where
  | c | z | i | d | v | n
deriving DecidableEq, Repr

/-- The bit of `P` a flag stands in (R18). -/
def Flag.bit : Flag → Nat
  | .c => 0
  | .z => 1
  | .i => 2
  | .d => 3
  | .v => 6
  | .n => 7

/-- The byte with just a flag's bit set. -/
def Flag.mask (f : Flag) : Byte := 1#8 <<< f.bit

/-- `P.f`, read (R6). -/
def getFlag (f : Flag) (p : Byte) : Bool := p.getLsbD f.bit

/-- `SetFlag(f)` (R88). -/
def setFlag (f : Flag) (p : Byte) : Byte := p ||| f.mask

/-- `ClearFlag(f)` (R89). -/
def clearFlag (f : Flag) (p : Byte) : Byte := p &&& ~~~f.mask

/-- `AssignFlag(f, cond)` (R90). -/
def assignFlag (f : Flag) (cond : Bool) (p : Byte) : Byte := if cond then setFlag f p else clearFlag f p

/-- The status register as a byte, from its six flags and its two unnamed bits (R18): bit 0 first. -/
def statusByte (c z i d b4 b5 v n : Bool) : Byte := BitVec.ofBoolListLE [c, z, i, d, b4, b5, v, n]

/-! ### Arithmetic helpers -/

/-- `to_signed(v)` (R85): `v` if `v < 128`, else `v − 256`. -/
def toSigned (v : Byte) : Int := if v.toNat < 128 then (v.toNat : Int) else (v.toNat : Int) - 256

/-- `from_signed(s)`, `wrap8(s)` (R86): `s mod 256`. -/
def wrap8 (s : Int) : Byte := BitVec.ofInt 8 s

/-! ### Flag computations -/

/-- `RespondToLoad(v)` on `P` (R92): Z iff `v` is 0, N from bit 7. -/
def respondToLoad (v : Byte) (p : Byte) : Byte := assignFlag .n (v.getLsbD 7) (assignFlag .z (v == 0) p)

/-- A Boolean as the integer it adds as a carry-in. -/
def carryIn (c : Bool) : Int := if c then 1 else 0

/-- ADC's unbounded sum `to_signed(A) + to_signed(M) + P.C` (R132). -/
def adcSum (a m : Byte) (p : Byte) : Int := toSigned a + toSigned m + carryIn (getFlag .c p)

/-- ADC's flags (R132): C and V from the unbounded sum, N and Z from the stored byte; D is read, not written. -/
def adcFlags (r : Int) (p : Byte) : Byte :=
  let p1 := assignFlag .c ((getFlag .d p && decide (r > 99)) || decide (r > 255)) p
  let p2 := assignFlag .v (decide (r > 127) || decide (r < -128)) p1
  let stored := wrap8 r
  assignFlag .z (stored == 0) (assignFlag .n (stored.getLsbD 7) p2)

/-- The unbounded difference of CMP and CPY on the unsigned patterns (R133, R134). -/
def compareDiff (reg m : Byte) : Int := (reg.toNat : Int) - (m.toNat : Int)

/-- The flags of CMP and CPY (R133, R134): N from bit 7 of the difference modulo 256, Z from zero, C from not negative. -/
def compareFlags (r : Int) (p : Byte) : Byte :=
  assignFlag .c (decide (r ≥ 0)) (assignFlag .z (decide (r = 0)) (assignFlag .n ((wrap8 r).getLsbD 7) p))

/-- The value LSR stores (R140): a logical shift right by one. -/
def lsrValue (v : Byte) : Byte := v >>> 1

/-- LSR's flags (R140): C from bit 0 of the value before the shift, N cleared, Z from the shifted value. -/
def lsrFlags (v : Byte) (p : Byte) : Byte :=
  assignFlag .z (lsrValue v == 0) (clearFlag .n (assignFlag .c (v.getLsbD 0) p))

/-- The value DEC and DEY compute (R141, R142): `wrap8(v − 1)`. -/
def decValue (v : Byte) : Byte := wrap8 ((v.toNat : Int) - 1)

/-! ### The status operations on the state -/

/-- Change `P`. -/
def updateP (f : Byte → Byte) (s : State) : State := s.setP (f s.p)

end Sys2Proof.Machine
end

