-- ==== Sys2Proof/Machine/Operands.lean ====
section
/-! DEFINITION. The three addressing-mode resolvers: read (R96 to R104), write (R105 to R111), address supply (R112).
At entry `PC` addresses the first operand byte of the resolution. -/

namespace Sys2Proof.Machine

/-- The operand's effective address in mode Absolute (R98, R106): `Read16(PC)`, then `PC` moves by 2. -/
def absoluteEa (s : State) : Addr × State :=
  let (ea, s1) := read16 s.pc s
  (ea, advancePc 2 s1)

/-- The operand's effective address in mode ZeroPage (R101, R108). -/
def zeroPageEa (s : State) : Addr × State :=
  let (z, s1) := fetchByte s
  (zext16 z, s1)

/-- The effective address of a zero-page indexed mode (R102, R109): the sum is not reduced to 8 bits. -/
def zeroPageIndexedEa (index : Byte) (s : State) : Addr × State :=
  let (z, s1) := fetchByte s
  (zext16 z + zext16 index, s1)

/-- The effective address of an indirect indexed mode (R103, R110): the pointer's high byte is read at `z + 1`, not
wrapped to the zero page; the index is added after the indirection, modulo 2^16. -/
def indirectIndexedEa (index : Byte) (s : State) : Addr × State :=
  let (z, s1) := fetchByte s
  let (lo, s2) := memRead (zext16 z) s1
  let (hi, s3) := memRead (zext16 z + 1) s2
  (word16 lo hi + zext16 index, s3)

/-- `ReadOp(mode)` for the modes that yield a value (R97, R98, R100 to R103). -/
def readOp (m : ReadMode) (s : State) : Byte × State :=
  match m with
  | .immediate => fetchByte s
  | .absolute => let (ea, s1) := absoluteEa s; memRead ea s1
  | .accumulator => (s.a, s)
  | .zeroPage => let (ea, s1) := zeroPageEa s; memRead ea s1
  | .zeroPageIndexedX => let (ea, s1) := zeroPageIndexedEa s.x s; memRead ea s1
  | .zeroPageIndirectIndexedX => let (ea, s1) := indirectIndexedEa s.x s; memRead ea s1

/-- `ReadOp(Relative)` (R99): a 16-bit target, counted from the address after the displacement byte. -/
def readRelative (s : State) : Addr × State :=
  let (d, s1) := fetchByte s
  (s1.pc + sext16 d, s1)

/-- `WriteOp(mode, v)` (R106 to R110). -/
def writeOp (m : WriteMode) (v : Byte) (s : State) : State :=
  match m with
  | .absolute => let (ea, s1) := absoluteEa s; memWrite ea v s1
  | .accumulator => s.setA v
  | .zeroPage => let (ea, s1) := zeroPageEa s; memWrite ea v s1
  | .zeroPageIndexedY => let (ea, s1) := zeroPageIndexedEa s.y s; memWrite ea v s1
  | .zeroPageIndirectIndexedY => let (ea, s1) := indirectIndexedEa s.y s; memWrite ea v s1

/-- `AddrOf(Absolute)` (R112): the address encoded at `PC`; `PC` is not moved. -/
def addrOf (s : State) : Addr × State := read16 s.pc s

/-- The read entry of a read-modify-write mode. -/
def rmwRead : RmwMode → ReadMode
  | .absolute => .absolute
  | .accumulator => .accumulator
  | .zeroPage => .zeroPage

/-- The write entry of a read-modify-write mode. -/
def rmwWrite : RmwMode → WriteMode
  | .absolute => .absolute
  | .accumulator => .accumulator
  | .zeroPage => .zeroPage

end Sys2Proof.Machine
end

