-- ==== Sys2Proof/Machine/Arithmetic.lean ====
section
/-! DEFINITION. AND, ORA, ADC, CMP and CPY (42_logic_add_compare.md, R130 to R134). -/

namespace Sys2Proof.Machine

/-- AND (R130). -/
def andA (m : ReadMode) (s : State) : State :=
  let (v, s1) := readOp m s
  let r := s1.a &&& v
  updateP (respondToLoad r) (s1.setA r)

/-- ORA (R131). -/
def ora (m : ReadMode) (s : State) : State :=
  let (v, s1) := readOp m s
  let r := s1.a ||| v
  updateP (respondToLoad r) (s1.setA r)

/-- ADC (R132): the sum of signed readings, C and V from the unbounded sum, then the stored byte, N and Z from it. -/
def adc (m : ReadMode) (s : State) : State :=
  let (v, s1) := readOp m s
  let r := adcSum s1.a v s1.p
  updateP (adcFlags r) (s1.setA (wrap8 r))

/-- CMP (R133): nothing is stored. -/
def cmp (m : ReadMode) (s : State) : State :=
  let (v, s1) := readOp m s
  updateP (compareFlags (compareDiff s1.a v)) s1

/-- CPY (R134): as CMP with `Y`. -/
def cpy (m : ReadMode) (s : State) : State :=
  let (v, s1) := readOp m s
  updateP (compareFlags (compareDiff s1.y v)) s1

/-- AND Immediate (R130). -/
def execAndImmediate (s : State) : Host.Outcome State Fault Refusal := .next (andA .immediate s)

/-- AND Absolute (R130). -/
def execAndAbsolute (s : State) : Host.Outcome State Fault Refusal := .next (andA .absolute s)

/-- AND Accumulator (R130). -/
def execAndAccumulator (s : State) : Host.Outcome State Fault Refusal := .next (andA .accumulator s)

/-- AND ZeroPage (R130). -/
def execAndZeroPage (s : State) : Host.Outcome State Fault Refusal := .next (andA .zeroPage s)

/-- AND ZeroPageIndexedX (R130). -/
def execAndZeroPageIndexedX (s : State) : Host.Outcome State Fault Refusal := .next (andA .zeroPageIndexedX s)

/-- AND ZeroPageIndirectIndexedX (R130). -/
def execAndZeroPageIndirectIndexedX (s : State) : Host.Outcome State Fault Refusal := .next (andA .zeroPageIndirectIndexedX s)

/-- ORA Immediate (R131). -/
def execOraImmediate (s : State) : Host.Outcome State Fault Refusal := .next (ora .immediate s)

/-- ORA Absolute (R131). -/
def execOraAbsolute (s : State) : Host.Outcome State Fault Refusal := .next (ora .absolute s)

/-- ORA Accumulator (R131). -/
def execOraAccumulator (s : State) : Host.Outcome State Fault Refusal := .next (ora .accumulator s)

/-- ORA ZeroPage (R131). -/
def execOraZeroPage (s : State) : Host.Outcome State Fault Refusal := .next (ora .zeroPage s)

/-- ORA ZeroPageIndexedX (R131). -/
def execOraZeroPageIndexedX (s : State) : Host.Outcome State Fault Refusal := .next (ora .zeroPageIndexedX s)

/-- ORA ZeroPageIndirectIndexedX (R131). -/
def execOraZeroPageIndirectIndexedX (s : State) : Host.Outcome State Fault Refusal := .next (ora .zeroPageIndirectIndexedX s)

/-- ADC Immediate (R132). -/
def execAdcImmediate (s : State) : Host.Outcome State Fault Refusal := .next (adc .immediate s)

/-- ADC Absolute (R132). -/
def execAdcAbsolute (s : State) : Host.Outcome State Fault Refusal := .next (adc .absolute s)

/-- ADC Accumulator (R132). -/
def execAdcAccumulator (s : State) : Host.Outcome State Fault Refusal := .next (adc .accumulator s)

/-- ADC ZeroPage (R132). -/
def execAdcZeroPage (s : State) : Host.Outcome State Fault Refusal := .next (adc .zeroPage s)

/-- ADC ZeroPageIndexedX (R132). -/
def execAdcZeroPageIndexedX (s : State) : Host.Outcome State Fault Refusal := .next (adc .zeroPageIndexedX s)

/-- ADC ZeroPageIndirectIndexedX (R132). -/
def execAdcZeroPageIndirectIndexedX (s : State) : Host.Outcome State Fault Refusal := .next (adc .zeroPageIndirectIndexedX s)

/-- CMP Immediate (R133). -/
def execCmpImmediate (s : State) : Host.Outcome State Fault Refusal := .next (cmp .immediate s)

/-- CMP Absolute (R133). -/
def execCmpAbsolute (s : State) : Host.Outcome State Fault Refusal := .next (cmp .absolute s)

/-- CMP Accumulator (R133). -/
def execCmpAccumulator (s : State) : Host.Outcome State Fault Refusal := .next (cmp .accumulator s)

/-- CMP ZeroPage (R133). -/
def execCmpZeroPage (s : State) : Host.Outcome State Fault Refusal := .next (cmp .zeroPage s)

/-- CMP ZeroPageIndexedX (R133). -/
def execCmpZeroPageIndexedX (s : State) : Host.Outcome State Fault Refusal := .next (cmp .zeroPageIndexedX s)

/-- CMP ZeroPageIndirectIndexedX (R133). -/
def execCmpZeroPageIndirectIndexedX (s : State) : Host.Outcome State Fault Refusal := .next (cmp .zeroPageIndirectIndexedX s)

/-- CPY Immediate (R134). -/
def execCpyImmediate (s : State) : Host.Outcome State Fault Refusal := .next (cpy .immediate s)

/-- CPY Absolute (R134). -/
def execCpyAbsolute (s : State) : Host.Outcome State Fault Refusal := .next (cpy .absolute s)

/-- CPY Accumulator (R134). -/
def execCpyAccumulator (s : State) : Host.Outcome State Fault Refusal := .next (cpy .accumulator s)

/-- CPY ZeroPage (R134). -/
def execCpyZeroPage (s : State) : Host.Outcome State Fault Refusal := .next (cpy .zeroPage s)

/-- CPY ZeroPageIndexedX (R134). -/
def execCpyZeroPageIndexedX (s : State) : Host.Outcome State Fault Refusal := .next (cpy .zeroPageIndexedX s)

/-- CPY ZeroPageIndirectIndexedX (R134). -/
def execCpyZeroPageIndirectIndexedX (s : State) : Host.Outcome State Fault Refusal := .next (cpy .zeroPageIndirectIndexedX s)

end Sys2Proof.Machine
end

