-- ==== Sys2Proof/Machine/Control.lean ====
section
/-! DEFINITION. JMP, JSR, RTS, BEQ and BNE (44_control_transfer.md, R150 to R154). -/

namespace Sys2Proof.Machine

/-- JMP (R150). -/
def jmp (s : State) : State :=
  let (target, s1) := addrOf s
  s1.setPc target

/-- JSR (R151): the address of the instruction's last byte is pushed, high byte first. -/
def jsr (s : State) : State :=
  let (target, s1) := addrOf s
  let s2 := advancePc 1 s1
  let s3 := push (highByte s2.pc) s2
  let s4 := push (lowByte s3.pc) s3
  s4.setPc target

/-- RTS (R152): low byte, then high byte, then one more. -/
def rts (s : State) : State :=
  let (lo, s1) := pull s
  let s2 := setPcl lo s1
  let (hi, s3) := pull s2
  advancePc 1 (setPch hi s3)

/-- A branch: the target is resolved, taken or not (R153, R154). -/
def branchIf (cond : Bool) (s : State) : State :=
  let (target, s1) := readRelative s
  if cond then s1.setPc target else s1

/-- BEQ (R153). -/
def beq (s : State) : State := branchIf (getFlag .z s.p) s

/-- BNE (R154). -/
def bne (s : State) : State := branchIf (!getFlag .z s.p) s

/-- JMP Absolute (R150). -/
def execJmpAbsolute (s : State) : Host.Outcome State Fault Refusal := .next (jmp s)

/-- JSR Absolute (R151). -/
def execJsrAbsolute (s : State) : Host.Outcome State Fault Refusal := .next (jsr s)

/-- RTS (R152). -/
def execRts (s : State) : Host.Outcome State Fault Refusal := .next (rts s)

/-- BEQ Relative (R153). -/
def execBeqRelative (s : State) : Host.Outcome State Fault Refusal := .next (beq s)

/-- BNE Relative (R154). -/
def execBneRelative (s : State) : Host.Outcome State Fault Refusal := .next (bne s)

end Sys2Proof.Machine
end

