-- ==== Sys2Proof/Machine/FlagOps.lean ====
section
/-! DEFINITION. SEI, CLD, CLC and SEC (45_flag_ops.md, R160 to R163): one bit of `P` and nothing else. -/

namespace Sys2Proof.Machine

/-- SEI (R160). -/
def sei (s : State) : State := updateP (setFlag .i) s

/-- CLD (R161). -/
def cld (s : State) : State := updateP (clearFlag .d) s

/-- CLC (R162). -/
def clc (s : State) : State := updateP (clearFlag .c) s

/-- SEC (R163). -/
def sec (s : State) : State := updateP (setFlag .c) s

/-- SEI (R160). -/
def execSei (s : State) : Host.Outcome State Fault Refusal := .next (sei s)

/-- CLD (R161). -/
def execCld (s : State) : Host.Outcome State Fault Refusal := .next (cld s)

/-- CLC (R162). -/
def execClc (s : State) : Host.Outcome State Fault Refusal := .next (clc s)

/-- SEC (R163). -/
def execSec (s : State) : Host.Outcome State Fault Refusal := .next (sec s)

end Sys2Proof.Machine
end

