-- ==== Sys2Proof/Machine/LoadStore.lean ====
section
/-! DEFINITION. LDA, LDX, LDY, STA and TXS (41_load_store_transfer.md, R120 to R124). -/

namespace Sys2Proof.Machine

/-- LDA (R120). -/
def lda (m : ReadMode) (s : State) : State :=
  let (v, s1) := readOp m s
  updateP (respondToLoad v) (s1.setA v)

/-- LDX (R121): an index is the value of `X` before the load. -/
def ldx (m : ReadMode) (s : State) : State :=
  let (v, s1) := readOp m s
  updateP (respondToLoad v) (s1.setX v)

/-- LDY (R122). -/
def ldy (m : ReadMode) (s : State) : State :=
  let (v, s1) := readOp m s
  updateP (respondToLoad v) (s1.setY v)

/-- STA (R123): no flag is written. -/
def sta (m : WriteMode) (s : State) : State := writeOp m s.a s

/-- TXS (R124): `SP <- X`, and Z and N respond to it (R200). -/
def txs (s : State) : State := updateP (respondToLoad s.x) (s.setSp s.x)

/-- LDA Immediate (R120). -/
def execLdaImmediate (s : State) : Host.Outcome State Fault Refusal := .next (lda .immediate s)

/-- LDA Absolute (R120). -/
def execLdaAbsolute (s : State) : Host.Outcome State Fault Refusal := .next (lda .absolute s)

/-- LDA Accumulator (R120). -/
def execLdaAccumulator (s : State) : Host.Outcome State Fault Refusal := .next (lda .accumulator s)

/-- LDA ZeroPage (R120). -/
def execLdaZeroPage (s : State) : Host.Outcome State Fault Refusal := .next (lda .zeroPage s)

/-- LDA ZeroPageIndexedX (R120). -/
def execLdaZeroPageIndexedX (s : State) : Host.Outcome State Fault Refusal := .next (lda .zeroPageIndexedX s)

/-- LDA ZeroPageIndirectIndexedX (R120). -/
def execLdaZeroPageIndirectIndexedX (s : State) : Host.Outcome State Fault Refusal := .next (lda .zeroPageIndirectIndexedX s)

/-- STA Absolute (R123). -/
def execStaAbsolute (s : State) : Host.Outcome State Fault Refusal := .next (sta .absolute s)

/-- STA Accumulator (R123). -/
def execStaAccumulator (s : State) : Host.Outcome State Fault Refusal := .next (sta .accumulator s)

/-- STA ZeroPage (R123). -/
def execStaZeroPage (s : State) : Host.Outcome State Fault Refusal := .next (sta .zeroPage s)

/-- STA ZeroPageIndexedY (R123). -/
def execStaZeroPageIndexedY (s : State) : Host.Outcome State Fault Refusal := .next (sta .zeroPageIndexedY s)

/-- STA ZeroPageIndirectIndexedY (R123). -/
def execStaZeroPageIndirectIndexedY (s : State) : Host.Outcome State Fault Refusal := .next (sta .zeroPageIndirectIndexedY s)

/-- LDX Immediate (R121). -/
def execLdxImmediate (s : State) : Host.Outcome State Fault Refusal := .next (ldx .immediate s)

/-- LDX Absolute (R121). -/
def execLdxAbsolute (s : State) : Host.Outcome State Fault Refusal := .next (ldx .absolute s)

/-- LDX Accumulator (R121). -/
def execLdxAccumulator (s : State) : Host.Outcome State Fault Refusal := .next (ldx .accumulator s)

/-- LDX ZeroPage (R121). -/
def execLdxZeroPage (s : State) : Host.Outcome State Fault Refusal := .next (ldx .zeroPage s)

/-- LDX ZeroPageIndexedX (R121). -/
def execLdxZeroPageIndexedX (s : State) : Host.Outcome State Fault Refusal := .next (ldx .zeroPageIndexedX s)

/-- LDX ZeroPageIndirectIndexedX (R121). -/
def execLdxZeroPageIndirectIndexedX (s : State) : Host.Outcome State Fault Refusal := .next (ldx .zeroPageIndirectIndexedX s)

/-- LDY Immediate (R122). -/
def execLdyImmediate (s : State) : Host.Outcome State Fault Refusal := .next (ldy .immediate s)

/-- LDY Absolute (R122). -/
def execLdyAbsolute (s : State) : Host.Outcome State Fault Refusal := .next (ldy .absolute s)

/-- LDY Accumulator (R122). -/
def execLdyAccumulator (s : State) : Host.Outcome State Fault Refusal := .next (ldy .accumulator s)

/-- LDY ZeroPage (R122). -/
def execLdyZeroPage (s : State) : Host.Outcome State Fault Refusal := .next (ldy .zeroPage s)

/-- LDY ZeroPageIndexedX (R122). -/
def execLdyZeroPageIndexedX (s : State) : Host.Outcome State Fault Refusal := .next (ldy .zeroPageIndexedX s)

/-- LDY ZeroPageIndirectIndexedX (R122). -/
def execLdyZeroPageIndirectIndexedX (s : State) : Host.Outcome State Fault Refusal := .next (ldy .zeroPageIndirectIndexedX s)

/-- TXS (R124). -/
def execTxs (s : State) : Host.Outcome State Fault Refusal := .next (txs s)

end Sys2Proof.Machine
end

