-- ==== Sys2Proof/Machine/ShiftDecrement.lean ====
section
/-! DEFINITION. LSR, DEC and DEY (43_shift_decrement.md, R140 to R142). LSR and DEC resolve their mode twice, each resolution
consuming its own operand bytes (R63, R196). -/

namespace Sys2Proof.Machine

/-- LSR (R140): the flags are written before the write resolution. -/
def lsr (m : RmwMode) (s : State) : State :=
  let (v, s1) := readOp (rmwRead m) s
  writeOp (rmwWrite m) (lsrValue v) (updateP (lsrFlags v) s1)

/-- DEC (R141): the flags are written after the write resolution. -/
def dec (m : RmwMode) (s : State) : State :=
  let (v, s1) := readOp (rmwRead m) s
  let w := decValue v
  updateP (respondToLoad w) (writeOp (rmwWrite m) w s1)

/-- DEY (R142). -/
def dey (s : State) : State :=
  let w := decValue s.y
  updateP (respondToLoad w) (s.setY w)

/-- DEC Absolute (R141). -/
def execDecAbsolute (s : State) : Host.Outcome State Fault Refusal := .next (dec .absolute s)

/-- DEC Accumulator (R141). -/
def execDecAccumulator (s : State) : Host.Outcome State Fault Refusal := .next (dec .accumulator s)

/-- DEC ZeroPage (R141). -/
def execDecZeroPage (s : State) : Host.Outcome State Fault Refusal := .next (dec .zeroPage s)

/-- DEY (R142). -/
def execDey (s : State) : Host.Outcome State Fault Refusal := .next (dey s)

/-- LSR Absolute (R140). -/
def execLsrAbsolute (s : State) : Host.Outcome State Fault Refusal := .next (lsr .absolute s)

/-- LSR Accumulator (R140). -/
def execLsrAccumulator (s : State) : Host.Outcome State Fault Refusal := .next (lsr .accumulator s)

/-- LSR ZeroPage (R140). -/
def execLsrZeroPage (s : State) : Host.Outcome State Fault Refusal := .next (lsr .zeroPage s)

end Sys2Proof.Machine
end

