-- ==== Sys2Proof/Machine/Dispatch.lean ====
section
/-! DEFINITION. The dispatcher: one arm per admitted instruction (R66, R72), each one call of its meaning. The mode
bits of the seven mode-less operations are ignored (R67). -/

namespace Sys2Proof.Machine

def exec (i : Instr) (s : State) : Host.Outcome State Fault Refusal :=
  match i with
  | .ldaImmediate => Sys2Proof.Machine.execLdaImmediate s
  | .ldaAbsolute => Sys2Proof.Machine.execLdaAbsolute s
  | .ldaAccumulator => Sys2Proof.Machine.execLdaAccumulator s
  | .ldaZeroPage => Sys2Proof.Machine.execLdaZeroPage s
  | .ldaZeroPageIndexedX => Sys2Proof.Machine.execLdaZeroPageIndexedX s
  | .ldaZeroPageIndirectIndexedX => Sys2Proof.Machine.execLdaZeroPageIndirectIndexedX s
  | .staAbsolute => Sys2Proof.Machine.execStaAbsolute s
  | .staAccumulator => Sys2Proof.Machine.execStaAccumulator s
  | .staZeroPage => Sys2Proof.Machine.execStaZeroPage s
  | .staZeroPageIndexedY => Sys2Proof.Machine.execStaZeroPageIndexedY s
  | .staZeroPageIndirectIndexedY => Sys2Proof.Machine.execStaZeroPageIndirectIndexedY s
  | .ldxImmediate => Sys2Proof.Machine.execLdxImmediate s
  | .ldxAbsolute => Sys2Proof.Machine.execLdxAbsolute s
  | .ldxAccumulator => Sys2Proof.Machine.execLdxAccumulator s
  | .ldxZeroPage => Sys2Proof.Machine.execLdxZeroPage s
  | .ldxZeroPageIndexedX => Sys2Proof.Machine.execLdxZeroPageIndexedX s
  | .ldxZeroPageIndirectIndexedX => Sys2Proof.Machine.execLdxZeroPageIndirectIndexedX s
  | .ldyImmediate => Sys2Proof.Machine.execLdyImmediate s
  | .ldyAbsolute => Sys2Proof.Machine.execLdyAbsolute s
  | .ldyAccumulator => Sys2Proof.Machine.execLdyAccumulator s
  | .ldyZeroPage => Sys2Proof.Machine.execLdyZeroPage s
  | .ldyZeroPageIndexedX => Sys2Proof.Machine.execLdyZeroPageIndexedX s
  | .ldyZeroPageIndirectIndexedX => Sys2Proof.Machine.execLdyZeroPageIndirectIndexedX s
  | .txs _ => Sys2Proof.Machine.execTxs s
  | .andImmediate => Sys2Proof.Machine.execAndImmediate s
  | .andAbsolute => Sys2Proof.Machine.execAndAbsolute s
  | .andAccumulator => Sys2Proof.Machine.execAndAccumulator s
  | .andZeroPage => Sys2Proof.Machine.execAndZeroPage s
  | .andZeroPageIndexedX => Sys2Proof.Machine.execAndZeroPageIndexedX s
  | .andZeroPageIndirectIndexedX => Sys2Proof.Machine.execAndZeroPageIndirectIndexedX s
  | .oraImmediate => Sys2Proof.Machine.execOraImmediate s
  | .oraAbsolute => Sys2Proof.Machine.execOraAbsolute s
  | .oraAccumulator => Sys2Proof.Machine.execOraAccumulator s
  | .oraZeroPage => Sys2Proof.Machine.execOraZeroPage s
  | .oraZeroPageIndexedX => Sys2Proof.Machine.execOraZeroPageIndexedX s
  | .oraZeroPageIndirectIndexedX => Sys2Proof.Machine.execOraZeroPageIndirectIndexedX s
  | .adcImmediate => Sys2Proof.Machine.execAdcImmediate s
  | .adcAbsolute => Sys2Proof.Machine.execAdcAbsolute s
  | .adcAccumulator => Sys2Proof.Machine.execAdcAccumulator s
  | .adcZeroPage => Sys2Proof.Machine.execAdcZeroPage s
  | .adcZeroPageIndexedX => Sys2Proof.Machine.execAdcZeroPageIndexedX s
  | .adcZeroPageIndirectIndexedX => Sys2Proof.Machine.execAdcZeroPageIndirectIndexedX s
  | .cmpImmediate => Sys2Proof.Machine.execCmpImmediate s
  | .cmpAbsolute => Sys2Proof.Machine.execCmpAbsolute s
  | .cmpAccumulator => Sys2Proof.Machine.execCmpAccumulator s
  | .cmpZeroPage => Sys2Proof.Machine.execCmpZeroPage s
  | .cmpZeroPageIndexedX => Sys2Proof.Machine.execCmpZeroPageIndexedX s
  | .cmpZeroPageIndirectIndexedX => Sys2Proof.Machine.execCmpZeroPageIndirectIndexedX s
  | .cpyImmediate => Sys2Proof.Machine.execCpyImmediate s
  | .cpyAbsolute => Sys2Proof.Machine.execCpyAbsolute s
  | .cpyAccumulator => Sys2Proof.Machine.execCpyAccumulator s
  | .cpyZeroPage => Sys2Proof.Machine.execCpyZeroPage s
  | .cpyZeroPageIndexedX => Sys2Proof.Machine.execCpyZeroPageIndexedX s
  | .cpyZeroPageIndirectIndexedX => Sys2Proof.Machine.execCpyZeroPageIndirectIndexedX s
  | .decAbsolute => Sys2Proof.Machine.execDecAbsolute s
  | .decAccumulator => Sys2Proof.Machine.execDecAccumulator s
  | .decZeroPage => Sys2Proof.Machine.execDecZeroPage s
  | .dey _ => Sys2Proof.Machine.execDey s
  | .lsrAbsolute => Sys2Proof.Machine.execLsrAbsolute s
  | .lsrAccumulator => Sys2Proof.Machine.execLsrAccumulator s
  | .lsrZeroPage => Sys2Proof.Machine.execLsrZeroPage s
  | .jmpAbsolute => Sys2Proof.Machine.execJmpAbsolute s
  | .jsrAbsolute => Sys2Proof.Machine.execJsrAbsolute s
  | .rts _ => Sys2Proof.Machine.execRts s
  | .beqRelative => Sys2Proof.Machine.execBeqRelative s
  | .bneRelative => Sys2Proof.Machine.execBneRelative s
  | .sei _ => Sys2Proof.Machine.execSei s
  | .cld _ => Sys2Proof.Machine.execCld s
  | .clc _ => Sys2Proof.Machine.execClc s
  | .sec _ => Sys2Proof.Machine.execSec s

end Sys2Proof.Machine
end

