-- ==== Sys2Proof/Machine/Cycle.lean ====
section
/-! DEFINITION. What a step does once it is neither halted nor interrupted (R78): the opcode fetch, the decoder map,
the dispatch; the dispatch interface (R8); and how an instruction is placed in memory for the next step. -/

namespace Sys2Proof.Machine

/-- `Dispatch(DW)` (R66): the handler of an admitted word runs to completion; any other word raises the decode fault
before anything is read or changed (R172). As R66 writes it, it looks at no latch: its callers, `fetchAndDispatch` and
`presentWord`, come here with a running core only (log 13). -/
def dispatch (dw : DispatchWord) (s : State) : Host.Outcome State Fault Refusal :=
  match decode dw with
  | .error f => .next (raiseDecodeFault f s)
  | .ok i => exec i s

/-- The environment presents a dispatch word to the core (R8). DESIGN CHOICE (log 13), safe: a halted core does nothing,
since no instruction executes after a fault (R182); R66 writes no such test. -/
def presentWord (dw : DispatchWord) (s : State) : Host.Outcome State Fault Refusal :=
  match s.fault with
  | some _ => .next s
  | none => dispatch dw s

/-- The opcode fetch, then the instruction the byte stands for; a byte outside dom(`DECODE`) raises `UnknownOpcode`
with the byte, zero-extended, after the fetch and before any other transaction (R77, R78, R171). -/
def fetchAndDispatch (s : State) : Host.Outcome State Fault Refusal :=
  let (b, s1) := fetchOpcode s
  match s1.decodeMap.lookup b with
  | none => .next (raiseDecodeFault ⟨.unknownOpcode, b.zeroExtend 9⟩ s1)
  | some dw => dispatch dw s1

/-- The environment writes bytes at successive addresses, from `a` on, modulo 2^16; no transaction of the core. -/
def placeBytes (a : Addr) : List Byte → Memory → Memory
  | [], m => m
  | b :: rest, m => placeBytes (a + 1) rest (m.write a.toNat b)

/-- A decoder map in which the byte 0x02 stands for a dispatch word, and every other byte for what it did. The byte is
outside `DECODE_6502` (R71). -/
def assignSpareByte (dw : DispatchWord) (map : DecodeMap) : DecodeMap :=
  (0x02#8, dw) :: map.filter (fun e => e.1 != 0x02#8)

/-- A decoder map in which some byte stands for a dispatch word, and that byte: the map itself where it has such a
byte, else the map with the spare byte given the word (R70 leaves the map open; log 9). -/
def mapFor (dw : DispatchWord) (map : DecodeMap) : Byte × DecodeMap :=
  match map.byteFor dw with
  | some b => (b, map)
  | none => (0x02#8, assignSpareByte dw map)

/-- How many operand bytes follow the opcode byte of a dispatch word; none for a word that is no instruction. -/
def operandBytesOf (dw : DispatchWord) : Nat :=
  match decode dw with
  | .ok i => i.operandBytes
  | .error _ => 0

/-- Place the instruction of a dispatch word at `PC`, its operand bytes zero, in a running core whose memory is plain RAM
(log 9). -/
def placeInstruction (dw : DispatchWord) (s : State) : State :=
  let (b, map) := mapFor dw s.decodeMap
  { s with mem := { s.mem with map := []
                               cells := placeBytes s.pc (b :: List.replicate (operandBytesOf dw) 0x00#8) s.mem.cells }
           decodeMap := map, fault := none, pending := [] }

end Sys2Proof.Machine
end

