-- ==== Sys2Proof/Machine/Step.lean ====
section
/-! DEFINITION. The step (R78): a halted core does nothing (R174); a pending interrupt is looked at before the fetch
(R177, R180); otherwise the next instruction runs to completion or raises the decode fault. -/

namespace Sys2Proof.Machine

/-- `Step()` (R78). Its Boolean result is `stepResult` of the next state. -/
def step (s : State) : Host.Outcome State Fault Refusal :=
  match s.fault with
  | some _ => .next s
  | none =>
    match s.pending with
    | k :: _ => intResponse k s
    | [] => fetchAndDispatch s

/-- The state with an instruction stored where `step` fetches its next one (log 9). The word is a dispatch word, the
one `decodeTableWord` reads, its bits above `nbits` zero; the operand bytes are zero. -/
def State.withFetchWord (s : State) (nbits w : Nat) : State := placeInstruction (BitVec.ofNat 9 (w % 2 ^ nbits)) s

end Sys2Proof.Machine
end

