-- ==== Sys2Proof/Machine/Run.lean ====
section
/-! DEFINITION. Runs: the Boolean of a step (R78, R174), `Run(n)` (R79), and the three ends of a run (R208). -/

namespace Sys2Proof.Machine

/-- The Boolean `Step()` returns, read from the state it leaves: false exactly when `FAULT` is latched (R78, R174). -/
def stepResult (s : State) : Bool := s.fault.isNone

/-- `Run(n)` (R79): up to n steps, stopping at the first that returns false; the state left and the result. -/
def runSteps : Nat → State → Host.Outcome (State × Bool) Fault Refusal
  | 0, s => .next (s, true)
  | n + 1, s =>
    match step s with
    | .next t => if stepResult t then runSteps n t else .next (t, false)
    | .fault r => .fault r
    | .refused r => .refused r

/-- Why a run ended (R208). -/
inductive RunEnd where
  /-- (a) The budget of steps is used up; the result is true. -/
  | budget
  /-- (b) A decode fault; the result is false. -/
  | decodeFault
  /-- (c) The model's own end-of-program predicate holds. -/
  | predicate
deriving DecidableEq, Repr

/-- A run of up to n steps that also ends where an end-of-program predicate holds (R208). DESIGN CHOICE (log 14), safe:
the predicate is an argument, looked at at every instruction boundary, the first one too, before the budget. -/
def runUntil (ended : State → Bool) : Nat → State → Host.Outcome (State × RunEnd) Fault Refusal
  | 0, s => .next (s, if ended s then .predicate else .budget)
  | n + 1, s =>
    if ended s then .next (s, .predicate) else
    match step s with
    | .next t => if stepResult t then runUntil ended n t else .next (t, .decodeFault)
    | .fault r => .fault r
    | .refused r => .refused r

/-- The end marker "a JMP to its own address" (R208) as a predicate: what the agent would answer at `PC` stands for JMP
Absolute and the two bytes after it for `PC`. No transaction is made. -/
def atSelfJump (s : State) : Bool :=
  match decodeByte s.decodeMap (s.mem.read s.pc).1 with
  | .ok i => i == .jmpAbsolute && word16 (s.mem.read (s.pc + 1)).1 (s.mem.read (s.pc + 2)).1 == s.pc
  | .error _ => false

/-- The end marker "a byte outside dom(`DECODE`)" (R208) as a predicate. -/
def atUnmappedByte (s : State) : Bool := s.decodeMap.lookup (s.mem.read s.pc).1 == none

end Sys2Proof.Machine
end

