-- ==== Sys2Proof/Safety.lean ====
section
/-! DEFINITION. What counts as a safe state and a safe run. -/

namespace Sys2Proof

open Machine

/-- The invariant of the model's data: memory and the pending set in their canonical forms, and a decoder map that
meets the requirement of R70. -/
structure Inv (s : State) : Prop where
  mem : s.mem.cells.wf = true
  pending : pendingWf s.pending = true
  decodeMap : s.decodeMap.wellFormed = true

/-- The core is running (R188): no fault is latched. -/
abbrev Running (s : State) : Prop := s.fault = none

/-- At an instruction boundary at which the next instruction is fetched (R180): running, and nothing pending. -/
abbrev Ready (s : State) : Prop := s.fault = none ∧ s.pending = []

/-- A run of n steps that is never refused and ends running. A halted state is never a safe run's final state (R173). -/
def SafeRun (n : Nat) (s t : State) : Prop := runSteps n s = .next (t, true)

end Sys2Proof
end

