-- ==== Sys2Proof/Certificates/Slice0/Obligations.lean ====
section
/-! DEFINITION. The statements for the provers, and the closed forms they are written in: what the rules of spec/ say an
instruction reads, writes and puts on the memory boundary, as arithmetic on numbers, apart from the machine's own
operations. In every statement about `exec`, `PC` addresses the first operand byte (handler entry, R16). Unless a
statement says plain RAM, it is about every memory agent (R40): what is read are the agent's answers, and the agent
after is the one that has served the transactions the statement lists, in that order. -/

namespace Sys2Proof.Claims

open Machine

/-- The answers of the memory agent to the reads of a handler, in order, from number 0 on. A statement says of some
answers that the agent served the transactions they stand in: by `MemAgent.serve` those are the agent's own. -/
abbrev Answers := Nat → Byte

/-- The 16-bit address of a number, modulo 2^16 (R43). -/
def addr (n : Nat) : Addr := BitVec.ofNat 16 n

/-- A little-endian 16-bit quantity (R44). -/
def le16 (lo hi : Byte) : Nat := lo.toNat + 256 * hi.toNat

/-- The read transaction at an address, with the agent's answer. -/
def rd (n : Nat) (v : Byte) : Transaction := .read (addr n) v

/-- The value of a read mode, from the answers to its reads (R97, R98, R100 to R103). -/
def readValue (m : ReadMode) (s : State) (b : Answers) : Byte :=
  match m with
  | .immediate => b 0
  | .absolute => b 2
  | .accumulator => s.a
  | .zeroPage | .zeroPageIndexedX => b 1
  | .zeroPageIndirectIndexedX => b 3

/-- How far one read resolution moves `PC` (R96). -/
def readWidth : ReadMode → Addr
  | .accumulator => 0
  | .absolute => 2
  | .immediate | .zeroPage | .zeroPageIndexedX | .zeroPageIndirectIndexedX => 1

/-- The transactions of one read resolution, in order (R58). -/
def readBus (m : ReadMode) (s : State) (b : Answers) : List Transaction :=
  let p := s.pc.toNat
  let z := (b 0).toNat
  match m with
  | .immediate => [rd p (b 0)]
  | .absolute => [rd p (b 0), rd (p + 1) (b 1), rd (le16 (b 0) (b 1)) (b 2)]
  | .accumulator => []
  | .zeroPage => [rd p (b 0), rd z (b 1)]
  | .zeroPageIndexedX => [rd p (b 0), rd (z + s.x.toNat) (b 1)]
  | .zeroPageIndirectIndexedX =>
    [rd p (b 0), rd z (b 1), rd (z + 1) (b 2), rd (le16 (b 1) (b 2) + s.x.toNat) (b 3)]

/-- How far one write resolution moves `PC` (R105). -/
def writeWidth : WriteMode → Addr
  | .accumulator => 0
  | .absolute => 2
  | .zeroPage | .zeroPageIndexedY | .zeroPageIndirectIndexedY => 1

/-- The transactions of one write resolution of `v`, in order (R58). -/
def writeBus (m : WriteMode) (v : Byte) (s : State) (b : Answers) : List Transaction :=
  let p := s.pc.toNat
  let z := (b 0).toNat
  match m with
  | .absolute => [rd p (b 0), rd (p + 1) (b 1), .write (addr (le16 (b 0) (b 1))) v]
  | .accumulator => []
  | .zeroPage => [rd p (b 0), .write (addr z) v]
  | .zeroPageIndexedY => [rd p (b 0), .write (addr (z + s.y.toNat)) v]
  | .zeroPageIndirectIndexedY =>
    [rd p (b 0), rd z (b 1), rd (z + 1) (b 2), .write (addr (le16 (b 1) (b 2) + s.y.toNat)) v]

/-- What one write resolution of `v` puts in `A` (R107). -/
def writtenA (m : WriteMode) (v : Byte) (s : State) : Byte := if m = .accumulator then v else s.a

/-- The source value of LSR and DEC, from the answers to the reads of their first resolution (R63). -/
def rmwSource (m : RmwMode) (s : State) (b : Answers) : Byte :=
  match m with
  | .absolute => b 2
  | .accumulator => s.a
  | .zeroPage => b 1

/-- How far LSR and DEC move `PC`: two resolutions (R63). -/
def rmwWidth : RmwMode → Addr
  | .absolute => 4
  | .accumulator => 0
  | .zeroPage => 2

/-- The transactions of LSR and DEC, in order (R58): the read resolution, then the write resolution of `w`, which takes
its operand bytes after those of the first (R63). -/
def rmwBus (m : RmwMode) (w : Byte) (s : State) (b : Answers) : List Transaction :=
  let p := s.pc.toNat
  match m with
  | .absolute => [rd p (b 0), rd (p + 1) (b 1), rd (le16 (b 0) (b 1)) (b 2), rd (p + 2) (b 3), rd (p + 3) (b 4),
      .write (addr (le16 (b 3) (b 4))) w]
  | .accumulator => []
  | .zeroPage => [rd p (b 0), rd (b 0).toNat (b 1), rd (p + 1) (b 2), .write (addr (b 2).toNat) w]

/-- The state LSR and DEC leave, from the value `w` they store, the status register `p` and the agent `g` they leave. -/
def afterRmw (m : RmwMode) (w p : Byte) (s : State) (b : Answers) (g : MemAgent) : State :=
  { s with pc := s.pc + rmwWidth m, a := if m = .accumulator then w else s.a, p := p
           mem := g, bus := s.bus ++ rmwBus m w s b }

/-- The byte the memory agent would answer at `PC`, the byte a step of a ready core fetches. -/
def opcodeAt (s : State) : Byte := (s.mem.read s.pc).1

/-! The bytes stored in plain RAM, for the statements about it. -/

/-- The memory agent is plain RAM (R56), in canonical form. -/
def PlainRam (s : State) : Prop := s.mem.map = [] ∧ s.mem.cells.wf = true

/-- The byte stored at an address given as a number. -/
def byteAt (s : State) (n : Nat) : Byte := s.mem.cells.read n

/-- Operand byte number `k` of the instruction, from `PC` at handler entry (R17, R60). -/
def operand (s : State) (k : Nat) : Byte := byteAt s (addr (s.pc.toNat + k)).toNat

/-- In plain RAM, the effective address of a write mode whose first operand byte is number `k`, none for the accumulator
(R106 to R110). -/
def writeEa (m : WriteMode) (k : Nat) (s : State) : Option Nat :=
  let z := (operand s k).toNat
  match m with
  | .absolute => some (le16 (operand s k) (operand s (k + 1)))
  | .accumulator => none
  | .zeroPage => some z
  | .zeroPageIndexedY => some (z + s.y.toNat)
  | .zeroPageIndirectIndexedY => some (le16 (byteAt s z) (byteAt s (z + 1)) + s.y.toNat)

/-! The flags of `P` by their bits (R18). -/

def fC (s : State) : Bool := s.p.getLsbD 0
def fZ (s : State) : Bool := s.p.getLsbD 1
def fI (s : State) : Bool := s.p.getLsbD 2
def fD (s : State) : Bool := s.p.getLsbD 3
def fV (s : State) : Bool := s.p.getLsbD 6
def fN (s : State) : Bool := s.p.getLsbD 7

/-- The status register with six flags as given and the two unnamed bits as they were (R18, R25). -/
def flags (s : State) (c z i d v n : Bool) : Byte :=
  statusByte c z i d (s.p.getLsbD 4) (s.p.getLsbD 5) v n

/-- The status register after Z and N respond to a value (R92). -/
def respond (s : State) (v : Byte) : Byte := flags s (fC s) (v == 0) (fI s) (fD s) (fV s) v.msb

/-- The status register after a comparison of `r` with `m` on the unsigned patterns (R133, R134). -/
def compared (s : State) (r m : Byte) : Byte :=
  flags s (decide (m.toNat ≤ r.toNat)) (r == m) (fI s) (fD s) (fV s) (r - m).msb

/-- One row of an instruction rule's encoding table: format, dispatch word, length, `DECODE_6502` byte. -/
def Row (i : Instr) (f : Format) (dw : DispatchWord) (len : Nat) (byte : Option Byte) : Prop :=
  encode i = dw ∧ decode dw = .ok i ∧ i.format = f ∧ i.length = len ∧ decode6502.byteFor dw = byte

/-- The row of a mode-less operation: any mode bits, format F0, length 1 (R67). -/
def ModelessRow (mk : BitVec 4 → Instr) (base : DispatchWord) (byte : Byte) : Prop :=
  (∀ m : BitVec 4, encode (mk m) = base + m.zeroExtend 9 ∧ decode (base + m.zeroExtend 9) = .ok (mk m) ∧
    (mk m).format = .f0 ∧ (mk m).length = 1) ∧ decode6502.byteFor base = some byte

/-- Every mode number but those listed is a decode fault for the operation number (R74, R75). -/
def OnlyModes (n : BitVec 5) (ms : List (BitVec 4)) : Prop :=
  ∀ m : BitVec 4, m ∉ ms → decode (n ++ m) = .error ⟨.illegalModeAccess, n ++ m⟩

/-- The instructions that write `A` (R10). -/
def writesA (i : Instr) : Bool :=
  match i.operation with
  | .lda | .and | .ora | .adc => true
  | .sta | .lsr | .dec => i.mode == some .accumulator
  | .ldx | .ldy | .txs | .cmp | .cpy | .dey | .jmp | .jsr | .rts | .beq | .bne | .sei | .cld | .clc | .sec => false

/-- The instructions that write a flag of `P` (the flag table of 10_state.md, R19 to R24). -/
def writesFlag (op : Operation) (f : Flag) : Bool :=
  match op with
  | .lda | .ldx | .ldy | .txs | .and | .ora | .dec | .dey => f == .z || f == .n
  | .adc => f == .c || f == .z || f == .v || f == .n
  | .cmp | .cpy | .lsr => f == .c || f == .z || f == .n
  | .sei => f == .i
  | .cld => f == .d
  | .clc | .sec => f == .c
  | .sta | .jmp | .jsr | .rts | .beq | .bne => false

/-- The write mode of a mode that has a write entry. -/
def storeMode (i : Instr) : Option WriteMode := i.mode.bind WriteMode.ofMode

/-- In plain RAM, the addresses an instruction stores to (R58): the destination of STA, LSR and DEC, the two stack slots of JSR. -/
def storedAt (i : Instr) (s : State) : List Nat :=
  match i.operation with
  | .sta => ((storeMode i).bind (fun m => writeEa m 0 s)).toList.map (fun n => (addr n).toNat)
  | .lsr | .dec => ((storeMode i).bind (fun m => writeEa m (i.operandBytes / 2) s)).toList.map (fun n => (addr n).toNat)
  | .jsr => [0x100 + s.sp.toNat, 0x100 + (s.sp - 1).toNat]
  | .lda | .ldx | .ldy | .txs | .and | .ora | .adc | .cmp | .cpy | .dey | .jmp | .rts | .beq | .bne
  | .sei | .cld | .clc | .sec => []

/-- The operations whose handler writes `PC` itself (R16). -/
def writesPc (op : Operation) : Bool :=
  match op with
  | .jmp | .jsr | .rts | .beq | .bne => true
  | .lda | .sta | .ldx | .ldy | .txs | .and | .ora | .adc | .cmp | .cpy | .dec | .dey | .lsr
  | .sei | .cld | .clc | .sec => false

/-- The state in which the handler of a step is entered: the opcode byte fetched, `PC` past it (R78). -/
def fetched (s : State) : State :=
  { s with pc := s.pc + 1, mem := (s.mem.read s.pc).2, bus := [.read s.pc (opcodeAt s)] }

end Sys2Proof.Claims

open Sys2Proof Sys2Proof.Machine Sys2Proof.Claims

/-- In every state and every admitted mode LDA completes: A is the resolved operand, Z and N respond to it, PC moves by
the width of the mode, the transactions are those of the read resolution, and nothing else changes but the agent, by
serving them. The encoding table of the rule holds: dispatch word, format, length and default byte of every mode,
and every other mode number is a decode fault. This holds for any memory agent: what is read are its answers to the
transactions listed, in order. The spec marks the word's numbers as its own decision (D1) and the default bytes as
general knowledge (G4).
(R120) -/
def Obligations.LdaLoadsAccumulator : Prop :=
  (Row .ldaImmediate .f1 0x000#9 2 (some 0xA9#8) ∧
    Row .ldaAbsolute .f2 0x001#9 3 (some 0xAD#8) ∧
    Row .ldaAccumulator .f0 0x003#9 1 none ∧
    Row .ldaZeroPage .f1 0x004#9 2 (some 0xA5#8) ∧
    Row .ldaZeroPageIndexedX .f1 0x005#9 2 (some 0xB5#8) ∧
    Row .ldaZeroPageIndirectIndexedX .f1 0x007#9 2 none ∧
    OnlyModes 0#5 [0, 1, 3, 4, 5, 7]) ∧
  ∀ (m : ReadMode) (s : State), ∃ (b : Answers) (g : MemAgent), s.mem.serve (readBus m s b) = some g ∧
    exec (Instr.lda m) s = .next
      { s with a := readValue m s b, p := respond s (readValue m s b)
               pc := s.pc + readWidth m, mem := g, bus := s.bus ++ readBus m s b }

/-- In every state and every admitted mode LDX completes: X is the operand resolved with the value of X before the load,
Z and N respond to it, PC moves by the width of the mode, the transactions are those of the read resolution, and
nothing else changes but the agent, by serving them. The encoding table of the rule holds: dispatch word, format,
length and default byte of every mode, and every other mode number is a decode fault. This holds for any memory
agent: what is read are its answers to the transactions listed, in order. The spec marks the word's numbers as its
own decision (D1) and the default bytes as general knowledge (G4).
(R121) -/
def Obligations.LdxLoadsIndexX : Prop :=
  (Row .ldxImmediate .f1 0x020#9 2 (some 0xA2#8) ∧
    Row .ldxAbsolute .f2 0x021#9 3 (some 0xAE#8) ∧
    Row .ldxAccumulator .f0 0x023#9 1 none ∧
    Row .ldxZeroPage .f1 0x024#9 2 (some 0xA6#8) ∧
    Row .ldxZeroPageIndexedX .f1 0x025#9 2 none ∧
    Row .ldxZeroPageIndirectIndexedX .f1 0x027#9 2 none ∧
    OnlyModes 2#5 [0, 1, 3, 4, 5, 7]) ∧
  ∀ (m : ReadMode) (s : State), ∃ (b : Answers) (g : MemAgent), s.mem.serve (readBus m s b) = some g ∧
    exec (Instr.ldx m) s = .next
      { s with x := readValue m s b, p := respond s (readValue m s b)
               pc := s.pc + readWidth m, mem := g, bus := s.bus ++ readBus m s b }

/-- In every state and every admitted mode LDY completes: Y is the resolved operand, Z and N respond to it, PC moves by
the width of the mode, the transactions are those of the read resolution, and nothing else changes but the agent, by
serving them. The encoding table of the rule holds: dispatch word, format, length and default byte of every mode,
and every other mode number is a decode fault. This holds for any memory agent: what is read are its answers to the
transactions listed, in order. The spec marks the word's numbers as its own decision (D1) and the default bytes as
general knowledge (G4).
(R122) -/
def Obligations.LdyLoadsIndexY : Prop :=
  (Row .ldyImmediate .f1 0x030#9 2 (some 0xA0#8) ∧
    Row .ldyAbsolute .f2 0x031#9 3 (some 0xAC#8) ∧
    Row .ldyAccumulator .f0 0x033#9 1 none ∧
    Row .ldyZeroPage .f1 0x034#9 2 (some 0xA4#8) ∧
    Row .ldyZeroPageIndexedX .f1 0x035#9 2 (some 0xB4#8) ∧
    Row .ldyZeroPageIndirectIndexedX .f1 0x037#9 2 none ∧
    OnlyModes 3#5 [0, 1, 3, 4, 5, 7]) ∧
  ∀ (m : ReadMode) (s : State), ∃ (b : Answers) (g : MemAgent), s.mem.serve (readBus m s b) = some g ∧
    exec (Instr.ldy m) s = .next
      { s with y := readValue m s b, p := respond s (readValue m s b)
               pc := s.pc + readWidth m, mem := g, bus := s.bus ++ readBus m s b }

/-- In every state and every admitted mode STA completes: A is stored at the effective address of the write mode (in
mode Accumulator nothing changes), PC moves by the width of the mode, the transactions are the reads of the write
resolution and then one write, and nothing else changes but the agent, by serving them. The encoding table of the
rule holds: dispatch word, format, length and default byte of every mode, and every other mode number is a decode
fault. This holds for any memory agent: what is read are its answers to the transactions listed, in order. The spec
marks the word's numbers as its own decision (D1) and the default bytes as general knowledge (G4).
(R123) -/
def Obligations.StaStoresAccumulator : Prop :=
  (Row .staAbsolute .f2 0x011#9 3 (some 0x8D#8) ∧
    Row .staAccumulator .f0 0x013#9 1 none ∧
    Row .staZeroPage .f1 0x014#9 2 (some 0x85#8) ∧
    Row .staZeroPageIndexedY .f1 0x016#9 2 none ∧
    Row .staZeroPageIndirectIndexedY .f1 0x018#9 2 (some 0x91#8) ∧
    OnlyModes 1#5 [1, 3, 4, 6, 8]) ∧
  ∀ (m : WriteMode) (s : State), ∃ (b : Answers) (g : MemAgent), s.mem.serve (writeBus m s.a s b) = some g ∧
    exec (Instr.sta m) s = .next
      { s with pc := s.pc + writeWidth m, mem := g, bus := s.bus ++ writeBus m s.a s b }

/-- For every mode field and in every state TXS completes: SP is X, Z and N respond to X, there is no transaction, PC
stays, and nothing else changes; the rule's encoding holds. The spec marks the word's numbers as its own decision
(D1) and the default bytes as general knowledge (G4), and TXS's transfer as general knowledge (D22, G5).
(R124) -/
def Obligations.TxsCopiesXToStackPointer : Prop :=
  ModelessRow .txs 0x040#9 0x9A#8 ∧
  ∀ (m : BitVec 4) (s : State), exec (.txs m) s = .next { s with sp := s.x, p := respond s s.x }

/-- In every state and every admitted mode AND completes: A is the bitwise AND of A and the resolved operand, Z and N
respond to the new A, PC moves by the width of the mode, the transactions are those of the read resolution, and
nothing else changes but the agent, by serving them. The encoding table of the rule holds: dispatch word, format,
length and default byte of every mode, and every other mode number is a decode fault. This holds for any memory
agent: what is read are its answers to the transactions listed, in order. The spec marks the word's numbers as its
own decision (D1) and the default bytes as general knowledge (G4).
(R130) -/
def Obligations.AndWithAccumulator : Prop :=
  (Row .andImmediate .f1 0x050#9 2 (some 0x29#8) ∧
    Row .andAbsolute .f2 0x051#9 3 (some 0x2D#8) ∧
    Row .andAccumulator .f0 0x053#9 1 none ∧
    Row .andZeroPage .f1 0x054#9 2 (some 0x25#8) ∧
    Row .andZeroPageIndexedX .f1 0x055#9 2 (some 0x35#8) ∧
    Row .andZeroPageIndirectIndexedX .f1 0x057#9 2 none ∧
    OnlyModes 5#5 [0, 1, 3, 4, 5, 7]) ∧
  ∀ (m : ReadMode) (s : State), ∃ (b : Answers) (g : MemAgent), s.mem.serve (readBus m s b) = some g ∧
    exec (Instr.and m) s = .next
      { s with a := s.a &&& readValue m s b, p := respond s (s.a &&& readValue m s b)
               pc := s.pc + readWidth m, mem := g, bus := s.bus ++ readBus m s b }

/-- In every state and every admitted mode ORA completes: A is the bitwise OR of A and the resolved operand, Z and N
respond to the new A, PC moves by the width of the mode, the transactions are those of the read resolution, and
nothing else changes but the agent, by serving them. The encoding table of the rule holds: dispatch word, format,
length and default byte of every mode, and every other mode number is a decode fault. This holds for any memory
agent: what is read are its answers to the transactions listed, in order. The spec marks the word's numbers as its
own decision (D1) and the default bytes as general knowledge (G4).
(R131) -/
def Obligations.OraWithAccumulator : Prop :=
  (Row .oraImmediate .f1 0x060#9 2 (some 0x09#8) ∧
    Row .oraAbsolute .f2 0x061#9 3 (some 0x0D#8) ∧
    Row .oraAccumulator .f0 0x063#9 1 none ∧
    Row .oraZeroPage .f1 0x064#9 2 (some 0x05#8) ∧
    Row .oraZeroPageIndexedX .f1 0x065#9 2 (some 0x15#8) ∧
    Row .oraZeroPageIndirectIndexedX .f1 0x067#9 2 none ∧
    OnlyModes 6#5 [0, 1, 3, 4, 5, 7]) ∧
  ∀ (m : ReadMode) (s : State), ∃ (b : Answers) (g : MemAgent), s.mem.serve (readBus m s b) = some g ∧
    exec (Instr.ora m) s = .next
      { s with a := s.a ||| readValue m s b, p := respond s (s.a ||| readValue m s b)
               pc := s.pc + readWidth m, mem := g, bus := s.bus ++ readBus m s b }

/-- In every state and every admitted mode ADC completes: with r the unbounded sum of the signed readings of A and the
operand and of the carry-in, A is r modulo 256, C is set iff D is set and r > 99 (r > 255 never holds), V iff r is
outside -128..127, N and Z from the stored byte, I and D unchanged; PC moves by the width of the mode, the
transactions are those of the read resolution, and nothing else changes but the agent, by serving them. The encoding
table of the rule holds: dispatch word, format, length and default byte of every mode, and every other mode number
is a decode fault. This holds for any memory agent: what is read are its answers to the transactions listed, in
order. The spec marks the word's numbers as its own decision (D1) and the default bytes as general knowledge (G4),
and which ADC flags see the unbounded sum as a decision (D24).
(R132) -/
def Obligations.AdcSignedSumAndFlags : Prop :=
  (Row .adcImmediate .f1 0x070#9 2 (some 0x69#8) ∧
    Row .adcAbsolute .f2 0x071#9 3 (some 0x6D#8) ∧
    Row .adcAccumulator .f0 0x073#9 1 none ∧
    Row .adcZeroPage .f1 0x074#9 2 (some 0x65#8) ∧
    Row .adcZeroPageIndexedX .f1 0x075#9 2 (some 0x75#8) ∧
    Row .adcZeroPageIndirectIndexedX .f1 0x077#9 2 none ∧
    OnlyModes 7#5 [0, 1, 3, 4, 5, 7]) ∧
  ∀ (m : ReadMode) (s : State), ∃ (b : Answers) (g : MemAgent), s.mem.serve (readBus m s b) = some g ∧
    let r : Int := s.a.toInt + (readValue m s b).toInt + (if fC s then 1 else 0)
    let stored : Byte := BitVec.ofInt 8 r
    r ≤ 255 ∧ exec (Instr.adc m) s = .next
      { s with a := stored
               p := flags s (fD s && decide (99 < r)) (stored == 0) (fI s) (fD s)
                 (decide (127 < r) || decide (r < -128)) stored.msb
               pc := s.pc + readWidth m, mem := g, bus := s.bus ++ readBus m s b }

/-- In every state and every admitted mode CMP completes: N is bit 7 of the difference of A and the operand modulo 256,
Z is set iff they are equal, C iff the operand is not above A (unsigned); V, I, D and every register are unchanged;
PC moves by the width of the mode and the transactions are those of the read resolution. The encoding table of the
rule holds: dispatch word, format, length and default byte of every mode, and every other mode number is a decode
fault. This holds for any memory agent: what is read are its answers to the transactions listed, in order. The spec
marks the word's numbers as its own decision (D1) and the default bytes as general knowledge (G4).
(R133) -/
def Obligations.CmpComparesAccumulator : Prop :=
  (Row .cmpImmediate .f1 0x080#9 2 (some 0xC9#8) ∧
    Row .cmpAbsolute .f2 0x081#9 3 (some 0xCD#8) ∧
    Row .cmpAccumulator .f0 0x083#9 1 none ∧
    Row .cmpZeroPage .f1 0x084#9 2 (some 0xC5#8) ∧
    Row .cmpZeroPageIndexedX .f1 0x085#9 2 (some 0xD5#8) ∧
    Row .cmpZeroPageIndirectIndexedX .f1 0x087#9 2 none ∧
    OnlyModes 8#5 [0, 1, 3, 4, 5, 7]) ∧
  ∀ (m : ReadMode) (s : State), ∃ (b : Answers) (g : MemAgent), s.mem.serve (readBus m s b) = some g ∧
    exec (Instr.cmp m) s = .next
      { s with p := compared s s.a (readValue m s b)
               pc := s.pc + readWidth m, mem := g, bus := s.bus ++ readBus m s b }

/-- In every state and every admitted mode CPY completes: N is bit 7 of the difference of Y and the operand modulo 256,
Z is set iff they are equal, C iff the operand is not above Y (unsigned); V, I, D and every register are unchanged;
PC moves by the width of the mode and the transactions are those of the read resolution. The encoding table of the
rule holds: dispatch word, format, length and default byte of every mode, and every other mode number is a decode
fault. This holds for any memory agent: what is read are its answers to the transactions listed, in order. The spec
marks the word's numbers as its own decision (D1) and the default bytes as general knowledge (G4), and that CPY
compares Y as a decision (D9, G6).
(R134) -/
def Obligations.CpyComparesIndexY : Prop :=
  (Row .cpyImmediate .f1 0x090#9 2 (some 0xC0#8) ∧
    Row .cpyAbsolute .f2 0x091#9 3 (some 0xCC#8) ∧
    Row .cpyAccumulator .f0 0x093#9 1 none ∧
    Row .cpyZeroPage .f1 0x094#9 2 (some 0xC4#8) ∧
    Row .cpyZeroPageIndexedX .f1 0x095#9 2 none ∧
    Row .cpyZeroPageIndirectIndexedX .f1 0x097#9 2 none ∧
    OnlyModes 9#5 [0, 1, 3, 4, 5, 7]) ∧
  ∀ (m : ReadMode) (s : State), ∃ (b : Answers) (g : MemAgent), s.mem.serve (readBus m s b) = some g ∧
    exec (Instr.cpy m) s = .next
      { s with p := compared s s.y (readValue m s b)
               pc := s.pc + readWidth m, mem := g, bus := s.bus ++ readBus m s b }

/-- In every state and every admitted mode LSR completes: the source value of the first resolution, halved, is stored by
the second resolution, which takes its operand bytes after the first; C is the low bit of the source, N is 0, Z is
set iff the result is 0; PC, the transactions in order and the unchanged rest are as the rule says. The encoding
table of the rule holds: dispatch word, format, length and default byte of every mode, and every other mode number
is a decode fault. This holds for any memory agent: what is read are its answers to the transactions listed, in
order. The spec marks the word's numbers as its own decision (D1) and the default bytes as general knowledge (G4),
and the two resolutions as a decision (D7).
(R140) -/
def Obligations.LsrShiftsSourceToDestination : Prop :=
  (Row .lsrAbsolute .f2r 0x0C1#9 5 (some 0x4E#8) ∧
    Row .lsrAccumulator .f0 0x0C3#9 1 (some 0x4A#8) ∧
    Row .lsrZeroPage .f1r 0x0C4#9 3 (some 0x46#8) ∧
    OnlyModes 12#5 [1, 3, 4]) ∧
  ∀ (m : RmwMode) (s : State), ∃ (b : Answers) (g : MemAgent),
    let v := (rmwSource m s b).toNat
    let w : Byte := BitVec.ofNat 8 (v / 2)
    s.mem.serve (rmwBus m w s b) = some g ∧
    exec (Instr.lsr m) s = .next (afterRmw m w
      (flags s (decide (v % 2 = 1)) (decide (v / 2 = 0)) (fI s) (fD s) (fV s) false) s b g)

/-- In every state and every admitted mode DEC completes: the source value of the first resolution, less one modulo 256,
is stored by the second resolution, which takes its operand bytes after the first; Z and N respond to the result;
PC, the transactions in order and the unchanged rest are as the rule says. The encoding table of the rule holds:
dispatch word, format, length and default byte of every mode, and every other mode number is a decode fault. This
holds for any memory agent: what is read are its answers to the transactions listed, in order. The spec marks the
word's numbers as its own decision (D1) and the default bytes as general knowledge (G4), and the two resolutions as
a decision (D7).
(R141) -/
def Obligations.DecDecrementsSourceToDestination : Prop :=
  (Row .decAbsolute .f2r 0x0A1#9 5 (some 0xCE#8) ∧
    Row .decAccumulator .f0 0x0A3#9 1 none ∧
    Row .decZeroPage .f1r 0x0A4#9 3 (some 0xC6#8) ∧
    OnlyModes 10#5 [1, 3, 4]) ∧
  ∀ (m : RmwMode) (s : State), ∃ (b : Answers) (g : MemAgent),
    let w : Byte := rmwSource m s b - 1
    s.mem.serve (rmwBus m w s b) = some g ∧
    exec (Instr.dec m) s = .next (afterRmw m w (respond s w) s b g)

/-- For every mode field and in every state DEY completes: Y is Y less one modulo 256, Z and N respond to the new Y,
there is no transaction, PC stays, and nothing else changes; the rule's encoding holds. The spec marks the word's
numbers as its own decision (D1) and the default bytes as general knowledge (G4).
(R142) -/
def Obligations.DeyDecrementsIndexY : Prop :=
  ModelessRow .dey 0x0B0#9 0x88#8 ∧
  ∀ (m : BitVec 4) (s : State), exec (.dey m) s = .next { s with y := s.y - 1, p := respond s (s.y - 1) }

/-- In every state JMP Absolute completes: PC is the little-endian address of the two bytes at PC, the transactions
are the two reads, low byte first, and nothing else changes but the agent, by serving them; every other mode is a
decode fault; the rule's encoding holds. This holds for any memory agent: what is read are its answers to the
transactions listed, in order. The spec marks the word's numbers as its own decision (D1) and the default bytes as
general knowledge (G4).
(R150) -/
def Obligations.JmpLoadsProgramCounter : Prop :=
  (Row .jmpAbsolute .f2 0x0D1#9 3 (some 0x4C#8) ∧
    OnlyModes 13#5 [1]) ∧
  ∀ s : State, ∃ (lo hi : Byte) (g : MemAgent),
    let ts := [rd s.pc.toNat lo, rd (s.pc.toNat + 1) hi]
    s.mem.serve ts = some g ∧
    exec .jmpAbsolute s = .next { s with pc := addr (le16 lo hi), mem := g, bus := s.bus ++ ts }

/-- In every state JSR Absolute completes: PC is the target read before the pushes, the writes to the two stack slots
are, in order, of the high and the low byte of the address of the last byte of the instruction, SP is decreased by 2
modulo 256, the transactions are two reads and two writes in order, and nothing else changes but the agent, by serving
them; every other mode is a decode fault; the rule's encoding holds. This holds for any memory agent: what is read are
its answers to the transactions listed, in order. The spec marks the word's numbers as its own decision (D1) and the
default bytes as general knowledge (G4), and the stack's page and direction as a decision (D17, G3).
(R151) -/
def Obligations.JsrPushesLastByteAddress : Prop :=
  (Row .jsrAbsolute .f2 0x0E1#9 3 (some 0x20#8) ∧
    OnlyModes 14#5 [1]) ∧
  ∀ s : State, ∃ (lo hi : Byte) (g : MemAgent),
    let last := (s.pc.toNat + 1) % 65536
    let ts := [rd s.pc.toNat lo, rd (s.pc.toNat + 1) hi,
      .write (addr (0x100 + s.sp.toNat)) (BitVec.ofNat 8 (last / 256)),
      .write (addr (0x100 + (s.sp - 1).toNat)) (BitVec.ofNat 8 (last % 256))]
    s.mem.serve ts = some g ∧
    exec .jsrAbsolute s = .next
      { s with pc := addr (le16 lo hi), sp := s.sp - 2, mem := g, bus := s.bus ++ ts }

/-- For every mode field and in every state RTS completes: PC is one more than the address whose low byte is in the
first slot above SP and whose high byte is in the next, SP is increased by 2 modulo 256, the transactions are those
two reads, and nothing else changes but the agent, by serving them; the rule's encoding holds. This holds for any
memory agent: what is read are its answers to the transactions listed, in order. The spec marks the word's numbers as
its own decision (D1) and the default bytes as general knowledge (G4), and the stack's page and direction as a
decision (D17, G3).
(R152) -/
def Obligations.RtsReturnsPastPulledAddress : Prop :=
  ModelessRow .rts 0x0F0#9 0x60#8 ∧
  ∀ (m : BitVec 4) (s : State), ∃ (lo hi : Byte) (g : MemAgent),
    let ts := [rd (0x100 + (s.sp + 1).toNat) lo, rd (0x100 + (s.sp + 2).toNat) hi]
    s.mem.serve ts = some g ∧
    exec (.rts m) s = .next
      { s with pc := addr (le16 lo hi + 1), sp := s.sp + 2, mem := g, bus := s.bus ++ ts }

/-- In every state BEQ Relative completes: if ZERO is set PC is the address after the displacement byte plus the
signed displacement, modulo 2^16, else PC is the address after the displacement byte; the one transaction is the read
of the displacement, taken or not, and nothing else changes but the agent, by serving them; every other mode is a
decode fault; the rule's encoding holds. This holds for any memory agent: what is read are its answers to the
transactions listed, in order. The spec marks the word's numbers as its own decision (D1) and the default bytes as
general knowledge (G4).
(R153) -/
def Obligations.BeqBranchesOnZeroSet : Prop :=
  (Row .beqRelative .f1 0x102#9 2 (some 0xF0#8) ∧
    OnlyModes 16#5 [2]) ∧
  ∀ s : State, ∃ (d : Byte) (g : MemAgent), s.mem.serve [rd s.pc.toNat d] = some g ∧
    exec .beqRelative s = .next
      { s with pc := if fZ s then BitVec.ofInt 16 ((s.pc.toNat : Int) + 1 + d.toInt) else s.pc + 1
               mem := g, bus := s.bus ++ [rd s.pc.toNat d] }

/-- In every state BNE Relative completes: if ZERO is clear PC is the address after the displacement byte plus the
signed displacement, modulo 2^16, else PC is the address after the displacement byte; the one transaction is the read
of the displacement, taken or not, and nothing else changes but the agent, by serving them; every other mode is a
decode fault; the rule's encoding holds. This holds for any memory agent: what is read are its answers to the
transactions listed, in order. The spec marks the word's numbers as its own decision (D1) and the default bytes as
general knowledge (G4).
(R154) -/
def Obligations.BneBranchesOnZeroClear : Prop :=
  (Row .bneRelative .f1 0x112#9 2 (some 0xD0#8) ∧
    OnlyModes 17#5 [2]) ∧
  ∀ s : State, ∃ (d : Byte) (g : MemAgent), s.mem.serve [rd s.pc.toNat d] = some g ∧
    exec .bneRelative s = .next
      { s with pc := if !fZ s then BitVec.ofInt 16 ((s.pc.toNat : Int) + 1 + d.toInt) else s.pc + 1
               mem := g, bus := s.bus ++ [rd s.pc.toNat d] }

/-- For every mode field and in every state SEI sets I, CLD clears D, CLC clears C and SEC sets C; every other flag,
both unnamed bits, every register, memory and the transactions are unchanged; the rules' encodings hold. The spec
marks the word's numbers as its own decision (D1) and the default bytes as general knowledge (G4), and which bit
each instruction acts on as a decision (D29, G7).
(R160, R161, R162, R163) -/
def Obligations.FlagInstructionsWriteOneBit : Prop :=
  ModelessRow .sei 0x120#9 0x78#8 ∧ ModelessRow .cld 0x130#9 0xD8#8 ∧
  ModelessRow .clc 0x140#9 0x18#8 ∧ ModelessRow .sec 0x150#9 0x38#8 ∧
  ∀ (m : BitVec 4) (s : State),
    exec (.sei m) s = .next { s with p := flags s (fC s) (fZ s) true (fD s) (fV s) (fN s) } ∧
    exec (.cld m) s = .next { s with p := flags s (fC s) (fZ s) (fI s) false (fV s) (fN s) } ∧
    exec (.clc m) s = .next { s with p := flags s false (fZ s) (fI s) (fD s) (fV s) (fN s) } ∧
    exec (.sec m) s = .next { s with p := flags s true (fZ s) (fI s) (fD s) (fV s) (fN s) }

/-- For each of the six value-yielding read modes one resolution gives the byte at the mode's effective address (the
accumulator for mode Accumulator), moves PC by the mode's width, issues the mode's reads in order, and changes
nothing else but the agent; zero-page sums are not reduced to 8 bits and the indirect sum is reduced modulo 2^16.
This holds for any memory agent: what is read are its answers to the transactions listed, in order. The spec marks
the unreduced zero-page sums as its own decision (D8).
(R97, R98, R100, R101, R102, R103) -/
def Obligations.ReadResolutions : Prop :=
  ∀ (m : ReadMode) (s : State), ∃ (b : Answers) (g : MemAgent), s.mem.serve (readBus m s b) = some g ∧
    readOp m s = (readValue m s b,
      { s with pc := s.pc + readWidth m, mem := g, bus := s.bus ++ readBus m s b })

/-- One resolution in mode Relative reads the byte at PC, moves PC by one, and gives the moved PC plus the
two's-complement reading of the byte, modulo 2^16; nothing else changes but the agent, by serving that read. This
holds for any memory agent: what is read are its answers to the transactions listed, in order.
(R99) -/
def Obligations.BranchTargetResolution : Prop :=
  ∀ s : State, ∃ (d : Byte) (g : MemAgent), s.mem.serve [rd s.pc.toNat d] = some g ∧
    readRelative s = (BitVec.ofInt 16 (((s.pc + 1).toNat : Int) + d.toInt),
      { s with pc := s.pc + 1, mem := g, bus := s.bus ++ [rd s.pc.toNat d] })

/-- For each of the five write modes one resolution stores the byte at the mode's effective address (in A for mode
Accumulator), moves PC by the mode's width, issues the mode's reads in order and then the write, and changes nothing
else but the agent. This holds for any memory agent: what is read are its answers to the transactions listed, in
order. The spec marks the unreduced zero-page sums as its own decision (D8).
(R106, R107, R108, R109, R110) -/
def Obligations.WriteResolutions : Prop :=
  ∀ (m : WriteMode) (v : Byte) (s : State), ∃ (b : Answers) (g : MemAgent),
    s.mem.serve (writeBus m v s b) = some g ∧
    writeOp m v s = { s with pc := s.pc + writeWidth m, a := writtenA m v s, mem := g
                             bus := s.bus ++ writeBus m v s b }

/-- The address supplier in mode Absolute gives the little-endian address of the two bytes at PC, low byte read first,
and leaves PC and everything else but the agent and the record of transactions as it was. This holds for any memory
agent: what is read are its answers to the transactions listed, in order.
(R112, R95, 40_helpers_and_addressing.md) -/
def Obligations.AddressSupplyLeavesPc : Prop :=
  ∀ s : State, ∃ (lo hi : Byte) (g : MemAgent),
    let ts := [rd s.pc.toNat lo, rd (s.pc.toNat + 1) hi]
    s.mem.serve ts = some g ∧ addrOf s = (addr (le16 lo hi), { s with mem := g, bus := s.bus ++ ts })

/-- Push writes the byte at 0x0100 + SP and then decrements SP modulo 256; pull increments SP modulo 256 and then reads
at 0x0100 + SP; one transaction each, served by any memory agent, and nothing else changes; in plain RAM a pull
right after a push of v gives v and restores SP. The spec marks the stack's page and direction as its own decision
(D17, G3).
(R93, R94) -/
def Obligations.StackPrimitives : Prop :=
  (∀ (v : Byte) (s : State),
    let slot := addr (0x100 + s.sp.toNat)
    push v s = { s with mem := s.mem.write slot v, sp := s.sp - 1, bus := s.bus ++ [.write slot v] }) ∧
  (∀ s : State, ∃ (v : Byte) (g : MemAgent),
    let slot := 0x100 + (s.sp + 1).toNat
    s.mem.serve [rd slot v] = some g ∧
    pull s = (v, { s with sp := s.sp + 1, mem := g, bus := s.bus ++ [rd slot v] })) ∧
  (∀ (v : Byte) (s : State), PlainRam s → (pull (push v s)).1 = v ∧ (pull (push v s)).2.sp = s.sp)

/-- to_signed(v) is v below 128 and v - 256 from there on; from_signed(s) is s modulo 256 for every integer s;
from_signed undoes to_signed on every byte, and to_signed undoes from_signed exactly on -128..127.
(R85, R86) -/
def Obligations.SignedConversions : Prop :=
  (∀ v : Byte, toSigned v = if v.toNat < 128 then (v.toNat : Int) else v.toNat - 256) ∧
  (∀ v : Byte, -128 ≤ toSigned v ∧ toSigned v ≤ 127) ∧
  (∀ r : Int, ((wrap8 r).toNat : Int) = r % 256) ∧
  (∀ v : Byte, wrap8 (toSigned v) = v) ∧
  (∀ r : Int, toSigned (wrap8 r) = r ↔ -128 ≤ r ∧ r ≤ 127)

/-- SetFlag writes 1, ClearFlag writes 0 and AssignFlag the condition into the flag's bit and each leaves the other
seven bits of P; RespondToLoad writes Z and N and leaves the other six. The spec marks the flags' bit numbers as its
own decision (D2, G2).
(R88, R89, R90, R91, R92) -/
def Obligations.StatusOperationsTouchOneBit : Prop :=
  (∀ (f : Flag) (p : Byte) (k : Nat), k < 8 →
    (setFlag f p).getLsbD k = (if k = f.bit then true else p.getLsbD k) ∧
    (clearFlag f p).getLsbD k = (if k = f.bit then false else p.getLsbD k) ∧
    ∀ b : Bool, (assignFlag f b p).getLsbD k = (if k = f.bit then b else p.getLsbD k)) ∧
  (∀ (v p : Byte) (k : Nat), k < 8 → (respondToLoad v p).getLsbD k =
    (if k = 1 then v == 0 else if k = 7 then v.msb else p.getLsbD k))

/-- For a word whose operation number is above 21 dispatch only latches (UnknownOpcode, word); for another word whose
operation takes a mode and whose mode number is above 8 or forms no admitted pair it only latches
(IllegalModeAccess, word); for every other word it runs the handler of the instruction with that operation and mode.
The spec marks the word's numbers and the split of the two causes as its own decisions (D1, D4).
(R66, R73, R74, R75) -/
def Obligations.DispatchFaultsOrRunsHandler : Prop :=
  ∀ (dw : DispatchWord) (s : State),
    (21 < dw.toNat / 16 → dispatch dw s = .next { s with fault := some ⟨.unknownOpcode, dw⟩ }) ∧
    ∀ op : Operation, op.number.toNat = dw.toNat / 16 →
      (op.ignoresMode = true → ∃ i : Instr, i.operation = op ∧ encode i = dw ∧ dispatch dw s = exec i s) ∧
      (op.ignoresMode = false → 8 < dw.toNat % 16 →
        dispatch dw s = .next { s with fault := some ⟨.illegalModeAccess, dw⟩ }) ∧
      ∀ m : Mode, m.number.toNat = dw.toNat % 16 → op.ignoresMode = false →
        (admitted op m = false → dispatch dw s = .next { s with fault := some ⟨.illegalModeAccess, dw⟩ }) ∧
        (admitted op m = true → ∃ i : Instr, i.operation = op ∧ i.mode = some m ∧ dispatch dw s = exec i s)

/-- A word decodes to an instruction iff its operation number names an operation that ignores its mode, or the pair of
its operation and mode is one of the rule's table: the six read modes for the eight read operations, five for STA,
three for LSR and DEC, Absolute for JMP and JSR, Relative for BEQ and BNE; these are 63 pairs and 7 mode-less
operations. The spec marks the admitted set as its own decision (D4).
(R72) -/
def Obligations.AdmittedSetIsTableClosure : Prop :=
  (∀ dw : DispatchWord, isAdmittedWord dw = true ↔
    dw.toNat / 16 ∈ [4, 11, 15, 18, 19, 20, 21] ∨
    (dw.toNat / 16 ∈ [0, 2, 3, 5, 6, 7, 8, 9] ∧ dw.toNat % 16 ∈ [0, 1, 3, 4, 5, 7]) ∨
    (dw.toNat / 16 = 1 ∧ dw.toNat % 16 ∈ [1, 3, 4, 6, 8]) ∨
    (dw.toNat / 16 ∈ [10, 12] ∧ dw.toNat % 16 ∈ [1, 3, 4]) ∨
    (dw.toNat / 16 ∈ [13, 14] ∧ dw.toNat % 16 = 1) ∨ (dw.toNat / 16 ∈ [16, 17] ∧ dw.toNat % 16 = 2)) ∧
  (∀ (op : Operation) (m : Mode), admitted op m = true ↔
    (∀ k ∈ op.accesses, k.hasEntry m = true) ∧ op.ignoresMode = false ∧ (m = .relative ↔ op = .beq ∨ op = .bne)) ∧
  ((List.range 512).filter (fun n => isAdmittedWord (BitVec.ofNat 9 n))).length = 63 + 7 * 16

/-- A word decodes to an instruction iff some row of the table has DW & mask == match and the operation and mode of that
instruction; that row's format, length and opcode byte are the instruction's; no word fits two rows; there are 70
rows.
(R82, R61, R71, 30_encoding.md) -/
def Obligations.OpcodeTableDecodes : Prop :=
  opcodeTable.length = 70 ∧
  (∀ dw : DispatchWord, isAdmittedWord dw = true ↔ ∃ r ∈ opcodeTable, r.fits dw = true) ∧
  (∀ (dw : DispatchWord) (i : Instr), decode dw = .ok i → ∀ r ∈ opcodeTable, r.fits dw = true →
    r.mnemonic = i.operation.mnemonic ∧ r.mode = i.mode ∧ r.format = i.format ∧ r.length = i.length ∧
    r.opcodeByte = decode6502.byteFor r.matchWord) ∧
  opcodeTable.Pairwise (fun r q => ∀ dw : DispatchWord, ¬ (r.fits dw = true ∧ q.fits dw = true))

/-- For each of TXS, DEY, RTS, SEI, CLD, CLC and SEC the table's mask is 0x1F0, and for every mode field the dispatch
word decodes, has length 1 and mode none, and its execution from any state is that of the word with mode field 0.
The spec marks the ignored mode field as its own decision (D23).
(R67) -/
def Obligations.ModeFieldIgnored : Prop :=
  ∀ op ∈ [Operation.txs, .dey, .rts, .sei, .cld, .clc, .sec],
    (∃ r ∈ opcodeTable, r.mnemonic = op.mnemonic ∧ r.mask = 0x1F0#9) ∧ ∀ m : BitVec 4,
    ∃ i j : Instr, decode (op.number ++ m) = .ok i ∧ decode (op.number ++ 0#4) = .ok j ∧
      i.operation = op ∧ i.mode = none ∧ i.length = 1 ∧ ∀ s : State, exec i s = exec j s

/-- LDA Immediate is 0x000, STA ZeroPageIndirectIndexedY 0x018, ADC ZeroPageIndirectIndexedX 0x077, LSR Absolute 0x0C1,
JSR Absolute 0x0E1, BNE Relative 0x112, SEC 0x15F; 0x160 names no operation and 0x010 no admitted pair; the bytes
0xA9, 0x91 and 0x60 stand for LDA Immediate, STA ZeroPageIndirectIndexedY and RTS, and 0xEA for nothing.
(30_encoding.md, R64, R65, R71) -/
def Obligations.WrittenOutWordsDecode : Prop :=
  decode 0x000#9 = .ok .ldaImmediate ∧ decode 0x018#9 = .ok .staZeroPageIndirectIndexedY ∧
  decode 0x077#9 = .ok .adcZeroPageIndirectIndexedX ∧ decode 0x0C1#9 = .ok .lsrAbsolute ∧
  decode 0x0E1#9 = .ok .jsrAbsolute ∧ decode 0x112#9 = .ok .bneRelative ∧ decode 0x15F#9 = .ok (.sec 0xF#4) ∧
  decode 0x160#9 = .error ⟨.unknownOpcode, 0x160#9⟩ ∧ decode 0x010#9 = .error ⟨.illegalModeAccess, 0x010#9⟩ ∧
  decodeByte decode6502 0xA9#8 = .ok .ldaImmediate ∧
  decodeByte decode6502 0x91#8 = .ok .staZeroPageIndirectIndexedY ∧
  decodeByte decode6502 0x60#8 = .ok (.rts 0#4) ∧
  decodeByte decode6502 0xEA#8 = .error ⟨.unknownOpcode, 0x0EA#9⟩

/-- The default decoder map lists 49 bytes, none twice, each for the dispatch word of an admitted instruction; the other
207 of the 256 bytes raise UnknownOpcode with the byte; the admitted instructions without a byte are every
ZeroPageIndirectIndexedX form, LDX and CPY ZeroPageIndexedX, STA ZeroPageIndexedY, and every Accumulator form but
LSR's.
(R70, R71, R77, 30_encoding.md) -/
def Obligations.DefaultMapMeetsItsRequirement : Prop :=
  decode6502.length = 49 ∧ decode6502.wellFormed = true ∧
  ((List.range 256).filter (fun n => decode6502.lookup (BitVec.ofNat 8 n) == none)).length = 207 ∧
  (∀ b : Byte, decode6502.lookup b = none → decodeByte decode6502 b = .error ⟨.unknownOpcode, b.zeroExtend 9⟩) ∧
  ∀ r ∈ opcodeTable, r.opcodeByte = none ↔
    r.mode = some .zeroPageIndirectIndexedX ∨ (r.mnemonic = "LDX" ∧ r.mode = some .zeroPageIndexedX) ∨
    (r.mnemonic = "CPY" ∧ r.mode = some .zeroPageIndexedX) ∨ (r.mnemonic = "STA" ∧ r.mode = some .zeroPageIndexedY) ∨
    (r.mode = some .accumulator ∧ r.mnemonic ≠ "LSR")

/-- For every dispatch word and every instruction, with every mode field of the mode-less ones: the word decodes to the
instruction iff the instruction encodes to the word; and the decoder gives only well-formed instructions.
(R66, R67, 30_encoding.md) -/
def Obligations.DecodeAndEncodeAgree : Prop :=
  (∀ (dw : DispatchWord) (i : Instr), decode dw = .ok i ↔ encode i = dw) ∧
  (∀ (dw : DispatchWord) (i : Instr), decode dw = .ok i → i.wellFormed = true)

/-- For every decoder map, every well-formed line of assembly whose instruction has a byte under the map, and any bytes
after it: decoding the line's bytes gives the line with all its operand bytes and the bytes after it; and the line's
bytes are as many as its instruction's length.
(R60, R61, R68, R80, 30_encoding.md) -/
def Obligations.LinesRoundTrip : Prop :=
  ∀ (map : DecodeMap) (l : Line) (bytes rest : List Byte), l.wellFormed = true →
    encodeLine map l = some bytes →
    decodeLine map (bytes ++ rest) = .ok (l, rest) ∧ bytes.length = l.instr.length

/-- When no fault is latched, nothing is pending and the byte the memory agent answers at PC stands for an instruction
under the decoder map, the step is that instruction's execution in the state whose PC is one more, whose agent has
served the opcode fetch and whose transactions are that fetch.
(R78, R16, 30_encoding.md) -/
def Obligations.StepRunsTheDecodedInstruction : Prop :=
  ∀ (s : State) (i : Instr), Ready s → decodeByte s.decodeMap (opcodeAt s) = .ok i →
    step s = exec i (fetched s)

/-- While a fault is latched a step leaves the whole state as it is and its result is false, whatever is pending, and a
run of one or more steps ends at once with false. A dispatch word presented to the halted core does nothing either,
which is the model's choice (log 13).
(R174, R180, R188, 60_exceptions.md) -/
def Obligations.HaltedCoreDoesNothing : Prop :=
  ∀ (s : State) (f : DecodeFault), s.fault = some f →
    step s = .next s ∧ stepResult s = false ∧ (∀ n : Nat, runSteps (n + 1) s = .next (s, false)) ∧
    ∀ dw : DispatchWord, presentWord dw s = .next s

/-- When no fault is latched and a kind is pending, then with the spec's default response (log 6) the step is refused by
the name of a pending kind and so is every run of one or more steps. With another response connected the step is
what that response gives for the state and the kind: refused where it gives no state, else its state, with its data
in canonical form and the parameters of the run as they were. Which of several kinds is presented is the model's
choice (log 12), and so is the form in which the state is taken (log 6).
(R178, R177, R180, 60_exceptions.md) -/
def Obligations.PendingInterruptRefusesRun : Prop :=
  ∀ s : State, s.fault = none → s.pending ≠ [] →
    ∃ k ∈ s.pending,
      (s.response = .refuse → step s = .refused (.pendingInterrupt k) ∧
        ∀ n : Nat, runSteps (n + 1) s = .refused (.pendingInterrupt k)) ∧
      ∀ id : Nat, s.response = .external id →
        (Config.intResponse id s k = none → step s = .refused (.pendingInterrupt k)) ∧
        ∀ r : State, Config.intResponse id s k = some r → ∃ t : State, step s = .next t ∧
          (t.pc = r.pc ∧ t.a = r.a ∧ t.x = r.x ∧ t.y = r.y ∧ t.sp = r.sp ∧ t.p = r.p ∧ t.fault = r.fault ∧
            t.bus = r.bus) ∧
          (∀ j : IntKind, j ∈ t.pending ↔ j ∈ r.pending) ∧ pendingWf t.pending = true ∧
          (r.mem.cells.wf = true → ∀ n : Nat, t.mem.cells.read n = r.mem.cells.read n) ∧
          t.mem.cells.wf = true ∧ t.mem.device = r.mem.device ∧
          t.mem.map = s.mem.map ∧ t.decodeMap = s.decodeMap ∧ t.response = s.response

/-- When the core is ready and the byte at PC is outside the domain of the decoder map, the step latches (UnknownOpcode,
the byte zero-extended), PC is one past the byte, the one transaction is the opcode fetch, which the memory agent
has served, everything else is as before, and the result is false; under DECODE_6502 that is 207 of the 256 byte
values. The spec marks the decoder map as its own open parameter with a default from general knowledge (D3, G4).
(R77) -/
def Obligations.UnknownByteFaultsAfterFetch : Prop :=
  ((List.range 256).filter (fun n => decode6502.lookup (BitVec.ofNat 8 n) == none)).length = 207 ∧
  ∀ s : State, Ready s → s.decodeMap.lookup (opcodeAt s) = none →
    ∃ t : State, step s = .next t ∧ stepResult t = false ∧
      t = { fetched s with fault := some ⟨.unknownOpcode, (opcodeAt s).zeroExtend 9⟩ }

/-- A dispatch word that raises a decode fault changes nothing but the latch. A step of a ready core whose byte at PC
has decode fault f latches f; PC is one past the old PC, the one transaction is the opcode fetch, and A, X, Y, SP,
P, the pending set and the parameters are as before, and so is memory but for what the fetch does to the agent. For
a byte that stands for a word outside the admitted set, f is the fault of that word and records the word. And a step
of a ready core that ends with a fault latched is such a step, and every stored byte is as before. The spec marks
the fault's causes and the state it leaves as its own decision (D12).
(R172, R173) -/
def Obligations.DecodeFaultIsPrecise : Prop :=
  (∀ (dw : DispatchWord) (f : DecodeFault) (s : State), decode dw = .error f →
    dispatch dw s = .next { s with fault := some f }) ∧
  (∀ (s : State) (f : DecodeFault), Ready s → decodeByte s.decodeMap (opcodeAt s) = .error f →
    step s = .next { s with pc := s.pc + 1, mem := (s.mem.read s.pc).2, bus := [.read s.pc (opcodeAt s)]
                            fault := some f }) ∧
  (∀ (s : State) (dw : DispatchWord) (f : DecodeFault), s.decodeMap.lookup (opcodeAt s) = some dw →
    decode dw = .error f → decodeByte s.decodeMap (opcodeAt s) = .error f ∧ f.info = dw) ∧
  ∀ s t : State, Ready s → step s = .next t → t.fault ≠ none →
    ∃ f : DecodeFault, decodeByte s.decodeMap (opcodeAt s) = .error f ∧
      t = { s with pc := s.pc + 1, mem := (s.mem.read s.pc).2, bus := [.read s.pc (opcodeAt s)], fault := some f } ∧
      t.mem.cells = s.mem.cells

/-- If the decoder map lies inside the admitted set and the core is ready, then after the step a latched fault has cause
UnknownOpcode, and one is latched iff the byte the memory agent answered at the old PC is outside the map.
(R70, R171, 30_encoding.md, 60_exceptions.md) -/
def Obligations.LegalMapNeverFaultsOnMode : Prop :=
  ∀ s t : State, s.decodeMap.wellFormed = true → Ready s → step s = .next t →
    (∀ f : DecodeFault, t.fault = some f → f.cause = .unknownOpcode) ∧
    (t.fault = none ↔ s.decodeMap.lookup (opcodeAt s) ≠ none)

/-- For each of the 70 instructions, every state and every memory agent the execution answers a next state, with the
fault latch, the pending set, the decoder map, the interrupt response and the agent's routing as before.
(R171, R175, R177, 60_exceptions.md) -/
def Obligations.AdmittedInstructionsNeverFault : Prop :=
  ∀ (i : Instr) (s : State), ∃ t : State, exec i s = .next t ∧
    t.fault = s.fault ∧ t.pending = s.pending ∧ t.decodeMap = s.decodeMap ∧ t.response = s.response ∧
    t.mem.map = s.mem.map

/-- A changes only in LDA, AND, ORA, ADC and the Accumulator forms of STA, LSR and DEC; X only in LDX; Y only in LDY and
DEY; SP only in TXS, JSR and RTS.
(R10, R12, R13, 10_state.md) -/
def Obligations.RegistersWrittenByTable : Prop :=
  ∀ (i : Instr) (s t : State), exec i s = .next t →
    (writesA i = false → t.a = s.a) ∧ (i.operation ≠ .ldx → t.x = s.x) ∧
    (i.operation ≠ .ldy → i.operation ≠ .dey → t.y = s.y) ∧
    (i.operation ≠ .txs → i.operation ≠ .jsr → i.operation ≠ .rts → t.sp = s.sp)

/-- For every instruction and every flag the flag table of 10_state.md leaves empty for it, the flag is unchanged; bits
4 and 5 of P are unchanged by every instruction.
(R19, R20, R21, R22, R23, R24, R25, 10_state.md) -/
def Obligations.FlagsWrittenByTable : Prop :=
  ∀ (i : Instr) (s t : State), exec i s = .next t →
    (∀ f : Flag, writesFlag i.operation f = false → getFlag f t.p = getFlag f s.p) ∧
    t.p.getLsbD 4 = s.p.getLsbD 4 ∧ t.p.getLsbD 5 = s.p.getLsbD 5

/-- In plain RAM, for every instruction and state, the byte at any address outside the addresses the instruction stores
to (the destination of STA, LSR and DEC computed from its operand bytes, the two stack slots of JSR, none for every
other) is after what it was before. For any memory agent, what it stores is after the instruction what serving the
instruction's transactions makes it, and a stored byte to which no write among them is routed is as before.
(R58, R123, R140, R141, R151, 20_memory.md) -/
def Obligations.MemoryWrittenOnlyWhereStored : Prop :=
  (∀ (i : Instr) (s t : State), PlainRam s → exec i s = .next t →
    PlainRam t ∧ ∀ n : Nat, n ∉ storedAt i s → byteAt t n = byteAt s n) ∧
  ∀ (i : Instr) (s t : State), exec i s = .next t → ∃ ts : List Transaction,
    t.bus = s.bus ++ ts ∧ s.mem.serve ts = some t.mem ∧
    ∀ n : Nat, (∀ a v, .write a v ∈ ts → ∀ w, route s.mem.map a.toNat ≠ .cell n w) → byteAt t n = byteAt s n

/-- In a canonical memory, after a write of v at a, a read at any address gives v at a and the old byte elsewhere; an
empty memory reads as the model's chosen byte 0x00 everywhere (log 3). The plain-RAM agent is not changed by a read
and answers so. In an agent of several regions (the model's vocabulary for routing, log 2) a read of stored bytes
changes nothing, a write where writes are discarded changes nothing, and a write elsewhere is read back at every
address that is routed to the same byte and at no other.
(R51, R56, 20_memory.md) -/
def Obligations.PlainRamReadsLatestWrite : Prop :=
  (∀ (m : Memory) (a b : Nat) (v : Byte), m.wf = true → (m.write a v).read b = if b = a then v else m.read b) ∧
  (∀ n : Nat, Memory.read [] n = 0x00#8) ∧
  (∀ (g : MemAgent) (a b : Addr) (v : Byte), g.map = [] → g.cells.wf = true →
    (g.read a).2 = g ∧ ((g.write a v).read b).1 = if b = a then v else (g.read b).1) ∧
  ∀ (g : MemAgent) (a : Addr) (n : Nat), g.cells.wf = true →
    (∀ w : Bool, route g.map a.toNat = .cell n w → g.read a = (g.cells.read n, g)) ∧
    (route g.map a.toNat = .cell n false → ∀ v : Byte, g.write a v = g) ∧
    (route g.map a.toNat = .cell n true → ∀ (v : Byte) (b : Addr) (k : Nat) (w : Bool), route g.map b.toNat = .cell k w →
      ((g.write a v).read b).1 = if k = n then v else (g.read b).1)

/-- For every instruction but JMP, JSR, RTS, BEQ and BNE, PC at exit is PC at handler entry plus the instruction's
length less one.
(R61, R68, 30_encoding.md) -/
def Obligations.InstructionAdvancesPcByItsLength : Prop :=
  ∀ (i : Instr) (s t : State), writesPc i.operation = false → exec i s = .next t →
    t.pc = s.pc + BitVec.ofNat 16 (i.length - 1)

/-- Every step of a ready core puts the read of the byte at PC first among its transactions, and the agent after the
step is the one that has served exactly these transactions in order. In plain RAM the byte at every address at which
no write is among them is as before. For any agent a stored byte to which no write among them is routed is as
before.
(R41, R42, R48, R78, 20_memory.md) -/
def Obligations.StepBeginsWithOpcodeFetch : Prop :=
  ∀ s t : State, Ready s → step s = .next t →
    (∃ rest : List Transaction, t.bus = .read s.pc (opcodeAt s) :: rest) ∧
    s.mem.serve t.bus = some t.mem ∧
    (s.mem.map = [] → ∀ a : Addr, (∀ v, Transaction.write a v ∉ t.bus) → byteAt t a.toNat = byteAt s a.toNat) ∧
    ∀ n : Nat, (∀ a v, .write a v ∈ t.bus → ∀ w, route s.mem.map a.toNat ≠ .cell n w) → byteAt t n = byteAt s n

/-- From any state with no kind pending, or with the default interrupt response, if a step answers a next state: a clear
D stays clear, a set I stays set, bits 4 and 5 of P stay, and V changes only in a step whose instruction is ADC.
What another interrupt response does to P is open (log 6).
(R204, R21, R22, R23, R25, 70_reset_and_hazards.md) -/
def Obligations.OneWayFlags : Prop :=
  ∀ s t : State, s.pending = [] ∨ s.response = .refuse → step s = .next t →
    (fD s = false → fD t = false) ∧ (fI s = true → fI t = true) ∧
    t.p.getLsbD 4 = s.p.getLsbD 4 ∧ t.p.getLsbD 5 = s.p.getLsbD 5 ∧
    (fV t ≠ fV s → ∃ i : Instr, decodeByte s.decodeMap (opcodeAt s) = .ok i ∧ i.operation = .adc)

/-- From every state that meets the invariant, reachable or not, a step that answers a next state leaves one that meets
it: the stored bytes list rising 16-bit addresses and no byte that an unlisted address reads as, the pending kinds
are listed once in order, and the decoder map lies inside the admitted set. The agent's routing, the decoder map and
the interrupt response are as before. That an interrupt response is taken so is the model's choice (log 6).
(R29, R31, R56, R70, 10_state.md, 20_memory.md) -/
def Obligations.StepKeepsInvariant : Prop :=
  ∀ s t : State, Inv s → step s = .next t →
    Inv t ∧ t.mem.map = s.mem.map ∧ t.decodeMap = s.decodeMap ∧ t.response = s.response

/-- The state after reset, with the register values and the memory the model chose (log 1, log 3) and the default
parameters, meets the invariant that every step keeps, and so does every launch state from an agent with a canonical
memory and a legal map.
(R30, R71, 10_state.md) -/
def Obligations.ResetMeetsInvariant : Prop :=
  Inv State.reset ∧ ∀ (init : Init) (g : MemAgent) (map : DecodeMap) (r : IntResponse),
    g.cells.wf = true → map.wellFormed = true → Inv (State.launch init g map r)

/-- With a memory agent whose stack page is plain RAM in canonical form, JSR from handler entry p and then RTS leave PC
= p + 2, the address after the 3-byte instruction, SP as it was, and A, X, Y and P as they were, wherever in the
page the stack lies.
(R151, R152, R45, 44_control_transfer.md) -/
def Obligations.JsrThenRtsReturns : Prop :=
  ∀ (s t : State) (m : BitVec 4), (∀ n : Nat, 0x100 ≤ n → n ≤ 0x1FF → route s.mem.map n = .cell n true) →
    s.mem.cells.wf = true → exec .jsrAbsolute s = .next t →
    ∃ u : State, exec (.rts m) t = .next u ∧ u.pc = s.pc + 2 ∧ u.sp = s.sp ∧
      u.a = s.a ∧ u.x = s.x ∧ u.y = s.y ∧ u.p = s.p

/-- When the core is ready, reading the three bytes at PC has no effect on the memory agent, the first stands for JMP
Absolute and the other two for PC, the step changes nothing but the record of transactions, and every further step
leaves the very same state; a run of any length returns true.
(R208, R150, 70_reset_and_hazards.md) -/
def Obligations.SelfJumpRepeatsForEver : Prop :=
  ∀ s : State, Ready s → (∀ a ∈ [s.pc, s.pc + 1, s.pc + 2], (s.mem.read a).2 = s.mem) →
    decodeByte s.decodeMap (opcodeAt s) = .ok .jmpAbsolute →
    addr (le16 (s.mem.read (s.pc + 1)).1 (s.mem.read (s.pc + 2)).1) = s.pc →
    ∃ t : State, step s = .next t ∧ t = { s with bus := t.bus } ∧ step t = .next t ∧
      ∀ n : Nat, runSteps (n + 1) s = .next (t, true)

/-- For every INIT, memory agent, decoder map and interrupt response the launch state has every register as INIT says,
an empty pending set, no fault and the connected memory, and the first step's first transaction is the read at
INIT.PC. The spec marks the open launch values as its own decision (D10).
(R190) -/
def Obligations.LaunchStateIsInit : Prop :=
  ∀ (init : Init) (g : MemAgent) (map : DecodeMap) (r : IntResponse),
    let s := State.launch init g map r
    (s.pc = init.pc ∧ s.a = init.a ∧ s.x = init.x ∧ s.y = init.y ∧ s.sp = init.sp ∧ s.p = init.p) ∧
    (s.pending = [] ∧ s.fault = none ∧ s.mem = g) ∧
    ∃ t : State, step s = .next t ∧ t.bus.head? = some (.read init.pc (g.read init.pc).1)

/-- From any state, a halted one too, initialising registers leaves INIT's value in each register, no fault, nothing
pending, and memory, the parameters and the record of transactions as they were; the core is ready again. The spec
marks re-initialisation as its own decision (D10, D15).
(R191) -/
def Obligations.InitializeRegistersClearsFault : Prop :=
  ∀ (init : Init) (s : State),
    initializeRegisters init s = { State.launch init s.mem s.decodeMap s.response with bus := s.bus } ∧
    Ready (initializeRegisters init s)

/-- A run of 0 steps is true and does nothing; a run of m + n steps is a run of m steps and then, only if that one
returned true, a run of n more; if it returned false that is the result, with the state it left.
(R79) -/
def Obligations.RunStopsAtFirstFalse : Prop :=
  (∀ s : State, runSteps 0 s = .next (s, true)) ∧
  (∀ s t : State, step s = .next t → runSteps 1 s = .next (t, stepResult t)) ∧
  ∀ (m n : Nat) (s : State), runSteps (m + n) s =
    match runSteps m s with
    | .next (t, true) => runSteps n t
    | .next (t, false) => .next (t, false)
    | .fault r => .fault r
    | .refused r => .refused r

/-- This states the model's own choice of how an instruction is placed from outside (log 9), no rule of the spec. For
every state whose stored bytes are in canonical form and every word that decodes to an instruction, the state with
that word placed at PC is ready, its memory is plain RAM in canonical form and its registers are as before, and its
step is the instruction's execution at PC + 1 after the opcode fetch.
(30_encoding.md, 70_reset_and_hazards.md) -/
def Obligations.PlacedInstructionRunsNext : Prop :=
  ∀ (s : State) (w : Nat) (i : Instr), s.mem.cells.wf = true → decodeTableWord 16 w = some i →
    let t := s.withFetchWord 16 w
    step t = exec i (fetched t) ∧ Ready t ∧ PlainRam t ∧
    t.pc = s.pc ∧ t.a = s.a ∧ t.x = s.x ∧ t.y = s.y ∧ t.sp = s.sp ∧ t.p = s.p

/-- In plain RAM, if an instruction of a ready core stores to the address PC has at its exit (STA, LSR and DEC in every
mode that stores, JSR through either push), then exactly one byte was written there, the accumulator for STA, and
the next step fetches that byte.
(R54, R203, 20_memory.md) -/
def Obligations.StoreSeenByNextFetch : Prop :=
  ∀ (i : Instr) (s t u : State), PlainRam s → Ready s → exec i s = .next t → t.pc.toNat ∈ storedAt i s →
    step t = .next u →
    ∃ (ts : List Transaction) (v : Byte), t.bus = s.bus ++ ts ∧ .write t.pc v ∈ ts ∧
      (∀ w, .write t.pc w ∈ ts → w = v) ∧ (i.operation = .sta → v = s.a) ∧
      u.bus.head? = some (.read t.pc v)

/-- For every instruction, state and kind, executing with the kind set pending beforehand is executing first and setting
it pending after. Setting a kind pending makes the pending kinds exactly those before and that one, keeps the set's
canonical form, and changes no other field.
(R177, R27, 60_exceptions.md) -/
def Obligations.PendingUnseenByHandlers : Prop :=
  (∀ (i : Instr) (k : IntKind) (s t : State), exec i s = .next t →
    exec i (raiseInterrupt k s) = .next (raiseInterrupt k t)) ∧
  ∀ (k : IntKind) (s : State),
    (∀ j : IntKind, j ∈ (raiseInterrupt k s).pending ↔ j = k ∨ j ∈ s.pending) ∧
    raiseInterrupt k s = { s with pending := (raiseInterrupt k s).pending } ∧
    (pendingWf s.pending = true → pendingWf (raiseInterrupt k s).pending = true)

/-- Two executions of an instruction from states that differ only in I leave the same registers, memory and transactions
and the same other bits of P; I is 1 after SEI and is left alone by every other instruction.
(R21, R179, R160, 45_flag_ops.md) -/
def Obligations.InterruptDisableUnread : Prop :=
  ∀ (i : Instr) (b : Bool) (s t : State), exec i s = .next t →
    exec i { s with p := assignFlag .i b s.p } =
      .next { t with p := assignFlag .i (if i.operation = .sei then true else b) t.p }

/-- A run with an end-of-program predicate that ends by its budget is a run of that many steps with result true; one
that ends by a decode fault is a run of some steps with result false and a fault latched; one that ends by the
predicate is a run with result true to the first instruction boundary at which the predicate holds. That the
predicate is an argument, looked at before the budget, is the model's choice (log 14). Of the two end markers the
spec uses, a byte outside the decoder map ends the run of a ready core with UnknownOpcode and that byte, and a JMP
to its own address is recognised by the bytes at PC.
(R208, R79, 70_reset_and_hazards.md) -/
def Obligations.RunEndsByBudgetFaultOrPredicate : Prop :=
  (∀ (ended : State → Bool) (n : Nat) (s t : State) (e : RunEnd), runUntil ended n s = .next (t, e) →
    (e = .budget → runSteps n s = .next (t, true) ∧ ended t = false) ∧
    (e = .decodeFault → t.fault ≠ none ∧ ∃ k < n, runSteps (k + 1) s = .next (t, false)) ∧
    (e = .predicate → ended t = true ∧ ∃ k ≤ n, runSteps k s = .next (t, true) ∧
      ∀ j < k, ∀ u : State, runSteps j s = .next (u, true) → ended u = false)) ∧
  (∀ (n : Nat) (s : State), Ready s → atUnmappedByte s = true → ∃ t : State,
    runUntil (fun _ => false) (n + 1) s = .next (t, .decodeFault) ∧
    t.fault = some ⟨.unknownOpcode, (opcodeAt s).zeroExtend 9⟩) ∧
  ∀ s : State, atSelfJump s = true ↔ decodeByte s.decodeMap (opcodeAt s) = .ok .jmpAbsolute ∧
    addr (le16 (s.mem.read (s.pc + 1)).1 (s.mem.read (s.pc + 2)).1) = s.pc
end

