-- ==== Sys2Proof/Laws/State.lean ====
section
/-! SUPPORT. One lemma per field per update of the state, true by definition, so that no later proof unfolds a record
update. -/

namespace Sys2Proof.Machine

variable (s : State)

@[simp] theorem State.setPc_pc (v : Addr) : (s.setPc v).pc = v := rfl
@[simp] theorem State.setPc_a (v : Addr) : (s.setPc v).a = s.a := rfl
@[simp] theorem State.setPc_x (v : Addr) : (s.setPc v).x = s.x := rfl
@[simp] theorem State.setPc_y (v : Addr) : (s.setPc v).y = s.y := rfl
@[simp] theorem State.setPc_sp (v : Addr) : (s.setPc v).sp = s.sp := rfl
@[simp] theorem State.setPc_p (v : Addr) : (s.setPc v).p = s.p := rfl
@[simp] theorem State.setPc_pending (v : Addr) : (s.setPc v).pending = s.pending := rfl
@[simp] theorem State.setPc_fault (v : Addr) : (s.setPc v).fault = s.fault := rfl
@[simp] theorem State.setPc_mem (v : Addr) : (s.setPc v).mem = s.mem := rfl
@[simp] theorem State.setPc_decodeMap (v : Addr) : (s.setPc v).decodeMap = s.decodeMap := rfl
@[simp] theorem State.setPc_response (v : Addr) : (s.setPc v).response = s.response := rfl
@[simp] theorem State.setPc_bus (v : Addr) : (s.setPc v).bus = s.bus := rfl

@[simp] theorem State.setA_pc (v : Byte) : (s.setA v).pc = s.pc := rfl
@[simp] theorem State.setA_a (v : Byte) : (s.setA v).a = v := rfl
@[simp] theorem State.setA_x (v : Byte) : (s.setA v).x = s.x := rfl
@[simp] theorem State.setA_y (v : Byte) : (s.setA v).y = s.y := rfl
@[simp] theorem State.setA_sp (v : Byte) : (s.setA v).sp = s.sp := rfl
@[simp] theorem State.setA_p (v : Byte) : (s.setA v).p = s.p := rfl
@[simp] theorem State.setA_pending (v : Byte) : (s.setA v).pending = s.pending := rfl
@[simp] theorem State.setA_fault (v : Byte) : (s.setA v).fault = s.fault := rfl
@[simp] theorem State.setA_mem (v : Byte) : (s.setA v).mem = s.mem := rfl
@[simp] theorem State.setA_decodeMap (v : Byte) : (s.setA v).decodeMap = s.decodeMap := rfl
@[simp] theorem State.setA_response (v : Byte) : (s.setA v).response = s.response := rfl
@[simp] theorem State.setA_bus (v : Byte) : (s.setA v).bus = s.bus := rfl

@[simp] theorem State.setX_pc (v : Byte) : (s.setX v).pc = s.pc := rfl
@[simp] theorem State.setX_a (v : Byte) : (s.setX v).a = s.a := rfl
@[simp] theorem State.setX_x (v : Byte) : (s.setX v).x = v := rfl
@[simp] theorem State.setX_y (v : Byte) : (s.setX v).y = s.y := rfl
@[simp] theorem State.setX_sp (v : Byte) : (s.setX v).sp = s.sp := rfl
@[simp] theorem State.setX_p (v : Byte) : (s.setX v).p = s.p := rfl
@[simp] theorem State.setX_pending (v : Byte) : (s.setX v).pending = s.pending := rfl
@[simp] theorem State.setX_fault (v : Byte) : (s.setX v).fault = s.fault := rfl
@[simp] theorem State.setX_mem (v : Byte) : (s.setX v).mem = s.mem := rfl
@[simp] theorem State.setX_decodeMap (v : Byte) : (s.setX v).decodeMap = s.decodeMap := rfl
@[simp] theorem State.setX_response (v : Byte) : (s.setX v).response = s.response := rfl
@[simp] theorem State.setX_bus (v : Byte) : (s.setX v).bus = s.bus := rfl

@[simp] theorem State.setY_pc (v : Byte) : (s.setY v).pc = s.pc := rfl
@[simp] theorem State.setY_a (v : Byte) : (s.setY v).a = s.a := rfl
@[simp] theorem State.setY_x (v : Byte) : (s.setY v).x = s.x := rfl
@[simp] theorem State.setY_y (v : Byte) : (s.setY v).y = v := rfl
@[simp] theorem State.setY_sp (v : Byte) : (s.setY v).sp = s.sp := rfl
@[simp] theorem State.setY_p (v : Byte) : (s.setY v).p = s.p := rfl
@[simp] theorem State.setY_pending (v : Byte) : (s.setY v).pending = s.pending := rfl
@[simp] theorem State.setY_fault (v : Byte) : (s.setY v).fault = s.fault := rfl
@[simp] theorem State.setY_mem (v : Byte) : (s.setY v).mem = s.mem := rfl
@[simp] theorem State.setY_decodeMap (v : Byte) : (s.setY v).decodeMap = s.decodeMap := rfl
@[simp] theorem State.setY_response (v : Byte) : (s.setY v).response = s.response := rfl
@[simp] theorem State.setY_bus (v : Byte) : (s.setY v).bus = s.bus := rfl

@[simp] theorem State.setSp_pc (v : Byte) : (s.setSp v).pc = s.pc := rfl
@[simp] theorem State.setSp_a (v : Byte) : (s.setSp v).a = s.a := rfl
@[simp] theorem State.setSp_x (v : Byte) : (s.setSp v).x = s.x := rfl
@[simp] theorem State.setSp_y (v : Byte) : (s.setSp v).y = s.y := rfl
@[simp] theorem State.setSp_sp (v : Byte) : (s.setSp v).sp = v := rfl
@[simp] theorem State.setSp_p (v : Byte) : (s.setSp v).p = s.p := rfl
@[simp] theorem State.setSp_pending (v : Byte) : (s.setSp v).pending = s.pending := rfl
@[simp] theorem State.setSp_fault (v : Byte) : (s.setSp v).fault = s.fault := rfl
@[simp] theorem State.setSp_mem (v : Byte) : (s.setSp v).mem = s.mem := rfl
@[simp] theorem State.setSp_decodeMap (v : Byte) : (s.setSp v).decodeMap = s.decodeMap := rfl
@[simp] theorem State.setSp_response (v : Byte) : (s.setSp v).response = s.response := rfl
@[simp] theorem State.setSp_bus (v : Byte) : (s.setSp v).bus = s.bus := rfl

@[simp] theorem State.setP_pc (v : Byte) : (s.setP v).pc = s.pc := rfl
@[simp] theorem State.setP_a (v : Byte) : (s.setP v).a = s.a := rfl
@[simp] theorem State.setP_x (v : Byte) : (s.setP v).x = s.x := rfl
@[simp] theorem State.setP_y (v : Byte) : (s.setP v).y = s.y := rfl
@[simp] theorem State.setP_sp (v : Byte) : (s.setP v).sp = s.sp := rfl
@[simp] theorem State.setP_p (v : Byte) : (s.setP v).p = v := rfl
@[simp] theorem State.setP_pending (v : Byte) : (s.setP v).pending = s.pending := rfl
@[simp] theorem State.setP_fault (v : Byte) : (s.setP v).fault = s.fault := rfl
@[simp] theorem State.setP_mem (v : Byte) : (s.setP v).mem = s.mem := rfl
@[simp] theorem State.setP_decodeMap (v : Byte) : (s.setP v).decodeMap = s.decodeMap := rfl
@[simp] theorem State.setP_response (v : Byte) : (s.setP v).response = s.response := rfl
@[simp] theorem State.setP_bus (v : Byte) : (s.setP v).bus = s.bus := rfl

@[simp] theorem State.setPending_pc (v : List IntKind) : (s.setPending v).pc = s.pc := rfl
@[simp] theorem State.setPending_a (v : List IntKind) : (s.setPending v).a = s.a := rfl
@[simp] theorem State.setPending_x (v : List IntKind) : (s.setPending v).x = s.x := rfl
@[simp] theorem State.setPending_y (v : List IntKind) : (s.setPending v).y = s.y := rfl
@[simp] theorem State.setPending_sp (v : List IntKind) : (s.setPending v).sp = s.sp := rfl
@[simp] theorem State.setPending_p (v : List IntKind) : (s.setPending v).p = s.p := rfl
@[simp] theorem State.setPending_pending (v : List IntKind) : (s.setPending v).pending = v := rfl
@[simp] theorem State.setPending_fault (v : List IntKind) : (s.setPending v).fault = s.fault := rfl
@[simp] theorem State.setPending_mem (v : List IntKind) : (s.setPending v).mem = s.mem := rfl
@[simp] theorem State.setPending_decodeMap (v : List IntKind) : (s.setPending v).decodeMap = s.decodeMap := rfl
@[simp] theorem State.setPending_response (v : List IntKind) : (s.setPending v).response = s.response := rfl
@[simp] theorem State.setPending_bus (v : List IntKind) : (s.setPending v).bus = s.bus := rfl

@[simp] theorem State.setFault_pc (v : Option DecodeFault) : (s.setFault v).pc = s.pc := rfl
@[simp] theorem State.setFault_a (v : Option DecodeFault) : (s.setFault v).a = s.a := rfl
@[simp] theorem State.setFault_x (v : Option DecodeFault) : (s.setFault v).x = s.x := rfl
@[simp] theorem State.setFault_y (v : Option DecodeFault) : (s.setFault v).y = s.y := rfl
@[simp] theorem State.setFault_sp (v : Option DecodeFault) : (s.setFault v).sp = s.sp := rfl
@[simp] theorem State.setFault_p (v : Option DecodeFault) : (s.setFault v).p = s.p := rfl
@[simp] theorem State.setFault_pending (v : Option DecodeFault) : (s.setFault v).pending = s.pending := rfl
@[simp] theorem State.setFault_fault (v : Option DecodeFault) : (s.setFault v).fault = v := rfl
@[simp] theorem State.setFault_mem (v : Option DecodeFault) : (s.setFault v).mem = s.mem := rfl
@[simp] theorem State.setFault_decodeMap (v : Option DecodeFault) : (s.setFault v).decodeMap = s.decodeMap := rfl
@[simp] theorem State.setFault_response (v : Option DecodeFault) : (s.setFault v).response = s.response := rfl
@[simp] theorem State.setFault_bus (v : Option DecodeFault) : (s.setFault v).bus = s.bus := rfl

@[simp] theorem State.setMem_pc (v : MemAgent) : (s.setMem v).pc = s.pc := rfl
@[simp] theorem State.setMem_a (v : MemAgent) : (s.setMem v).a = s.a := rfl
@[simp] theorem State.setMem_x (v : MemAgent) : (s.setMem v).x = s.x := rfl
@[simp] theorem State.setMem_y (v : MemAgent) : (s.setMem v).y = s.y := rfl
@[simp] theorem State.setMem_sp (v : MemAgent) : (s.setMem v).sp = s.sp := rfl
@[simp] theorem State.setMem_p (v : MemAgent) : (s.setMem v).p = s.p := rfl
@[simp] theorem State.setMem_pending (v : MemAgent) : (s.setMem v).pending = s.pending := rfl
@[simp] theorem State.setMem_fault (v : MemAgent) : (s.setMem v).fault = s.fault := rfl
@[simp] theorem State.setMem_mem (v : MemAgent) : (s.setMem v).mem = v := rfl
@[simp] theorem State.setMem_decodeMap (v : MemAgent) : (s.setMem v).decodeMap = s.decodeMap := rfl
@[simp] theorem State.setMem_response (v : MemAgent) : (s.setMem v).response = s.response := rfl
@[simp] theorem State.setMem_bus (v : MemAgent) : (s.setMem v).bus = s.bus := rfl

@[simp] theorem State.setDecodeMap_pc (v : DecodeMap) : (s.setDecodeMap v).pc = s.pc := rfl
@[simp] theorem State.setDecodeMap_a (v : DecodeMap) : (s.setDecodeMap v).a = s.a := rfl
@[simp] theorem State.setDecodeMap_x (v : DecodeMap) : (s.setDecodeMap v).x = s.x := rfl
@[simp] theorem State.setDecodeMap_y (v : DecodeMap) : (s.setDecodeMap v).y = s.y := rfl
@[simp] theorem State.setDecodeMap_sp (v : DecodeMap) : (s.setDecodeMap v).sp = s.sp := rfl
@[simp] theorem State.setDecodeMap_p (v : DecodeMap) : (s.setDecodeMap v).p = s.p := rfl
@[simp] theorem State.setDecodeMap_pending (v : DecodeMap) : (s.setDecodeMap v).pending = s.pending := rfl
@[simp] theorem State.setDecodeMap_fault (v : DecodeMap) : (s.setDecodeMap v).fault = s.fault := rfl
@[simp] theorem State.setDecodeMap_mem (v : DecodeMap) : (s.setDecodeMap v).mem = s.mem := rfl
@[simp] theorem State.setDecodeMap_decodeMap (v : DecodeMap) : (s.setDecodeMap v).decodeMap = v := rfl
@[simp] theorem State.setDecodeMap_response (v : DecodeMap) : (s.setDecodeMap v).response = s.response := rfl
@[simp] theorem State.setDecodeMap_bus (v : DecodeMap) : (s.setDecodeMap v).bus = s.bus := rfl

@[simp] theorem State.setResponse_pc (v : IntResponse) : (s.setResponse v).pc = s.pc := rfl
@[simp] theorem State.setResponse_a (v : IntResponse) : (s.setResponse v).a = s.a := rfl
@[simp] theorem State.setResponse_x (v : IntResponse) : (s.setResponse v).x = s.x := rfl
@[simp] theorem State.setResponse_y (v : IntResponse) : (s.setResponse v).y = s.y := rfl
@[simp] theorem State.setResponse_sp (v : IntResponse) : (s.setResponse v).sp = s.sp := rfl
@[simp] theorem State.setResponse_p (v : IntResponse) : (s.setResponse v).p = s.p := rfl
@[simp] theorem State.setResponse_pending (v : IntResponse) : (s.setResponse v).pending = s.pending := rfl
@[simp] theorem State.setResponse_fault (v : IntResponse) : (s.setResponse v).fault = s.fault := rfl
@[simp] theorem State.setResponse_mem (v : IntResponse) : (s.setResponse v).mem = s.mem := rfl
@[simp] theorem State.setResponse_decodeMap (v : IntResponse) : (s.setResponse v).decodeMap = s.decodeMap := rfl
@[simp] theorem State.setResponse_response (v : IntResponse) : (s.setResponse v).response = v := rfl
@[simp] theorem State.setResponse_bus (v : IntResponse) : (s.setResponse v).bus = s.bus := rfl

@[simp] theorem State.setBus_pc (v : List Transaction) : (s.setBus v).pc = s.pc := rfl
@[simp] theorem State.setBus_a (v : List Transaction) : (s.setBus v).a = s.a := rfl
@[simp] theorem State.setBus_x (v : List Transaction) : (s.setBus v).x = s.x := rfl
@[simp] theorem State.setBus_y (v : List Transaction) : (s.setBus v).y = s.y := rfl
@[simp] theorem State.setBus_sp (v : List Transaction) : (s.setBus v).sp = s.sp := rfl
@[simp] theorem State.setBus_p (v : List Transaction) : (s.setBus v).p = s.p := rfl
@[simp] theorem State.setBus_pending (v : List Transaction) : (s.setBus v).pending = s.pending := rfl
@[simp] theorem State.setBus_fault (v : List Transaction) : (s.setBus v).fault = s.fault := rfl
@[simp] theorem State.setBus_mem (v : List Transaction) : (s.setBus v).mem = s.mem := rfl
@[simp] theorem State.setBus_decodeMap (v : List Transaction) : (s.setBus v).decodeMap = s.decodeMap := rfl
@[simp] theorem State.setBus_response (v : List Transaction) : (s.setBus v).response = s.response := rfl
@[simp] theorem State.setBus_bus (v : List Transaction) : (s.setBus v).bus = v := rfl

end Sys2Proof.Machine
end

