-- ==== Sys2Proof/Laws/Memory.lean ====
section
/-! SUPPORT. The laws of the plain-RAM memory agent (R51, R56): what a read gives after a write, and that every write
keeps the canonical form. -/

namespace Sys2Proof.Machine

theorem Memory.read_cons_of_ne {a c : Nat} (h : a ≠ c) (v : Byte) (m : Memory) :
    (Memory.cons a v m).read c = m.read c := by
  unfold Memory.cons
  split
  · rfl
  · simp [Memory.read, h]

/-- A write leaves every other address alone. -/
theorem Memory.read_write_other {a c : Nat} (h : c ≠ a) (v : Byte) (m : Memory) :
    (m.write a v).read c = m.read c := by
  induction m with
  | nil => simpa [Memory.write] using Memory.read_cons_of_ne h.symm v []
  | cons cell rest ih =>
    obtain ⟨b, w⟩ := cell
    simp only [Memory.write]
    split
    · exact Memory.read_cons_of_ne h.symm v _
    · split
      · subst_vars; rw [Memory.read_cons_of_ne h.symm]; simp [Memory.read, h.symm]
      · simp only [Memory.read, ih]

/-- An address below the bound of a canonical memory is unlisted. -/
theorem Memory.read_of_lt_bound {m : Memory} {n a : Nat} (h : m.wfFrom n = true) (ha : a < n) :
    m.read a = Config.unlistedByte := by
  induction m generalizing n with
  | nil => rfl
  | cons cell rest ih =>
    obtain ⟨b, w⟩ := cell
    simp only [Memory.wfFrom, Bool.and_eq_true, decide_eq_true_eq] at h
    have hb : b ≠ a := by omega
    simp [Memory.read, hb, ih h.2 (by omega)]

theorem Memory.wfFrom_mono {m : Memory} {n k : Nat} (h : m.wfFrom n = true) (hk : k ≤ n) : m.wfFrom k = true := by
  cases m with
  | nil => rfl
  | cons cell rest =>
    obtain ⟨b, w⟩ := cell
    simp only [Memory.wfFrom, Bool.and_eq_true, decide_eq_true_eq] at h ⊢
    exact ⟨⟨⟨by omega, h.1.1.2⟩, h.1.2⟩, h.2⟩

theorem Memory.read_cons_same {m : Memory} {a : Nat} (v : Byte) (h : m.read a = Config.unlistedByte) :
    (Memory.cons a v m).read a = v := by
  unfold Memory.cons
  split
  · rw [h]; exact Eq.symm ‹_›
  · simp [Memory.read]

theorem Memory.read_write_same_from {m : Memory} {n : Nat} (h : m.wfFrom n = true) (a : Nat) (v : Byte) :
    (m.write a v).read a = v := by
  induction m generalizing n with
  | nil => exact Memory.read_cons_same v rfl
  | cons cell rest ih =>
    obtain ⟨b, w⟩ := cell
    have hr : Memory.wfFrom (b + 1) rest = true := by
      simp only [Memory.wfFrom, Bool.and_eq_true] at h; exact h.2
    simp only [Memory.write]
    split
    · refine Memory.read_cons_same v ?_
      have hb : b ≠ a := by omega
      simp [Memory.read, hb, Memory.read_of_lt_bound hr (show a < b + 1 by omega)]
    · split
      · exact Memory.read_cons_same v (Memory.read_of_lt_bound hr (by omega))
      · have hb : b ≠ a := by omega
        simp [Memory.read, hb, ih hr]

/-- A read after a write to the same address gives the byte written. -/
theorem Memory.read_write_same {m : Memory} (h : m.wf = true) (a : Nat) (v : Byte) : (m.write a v).read a = v :=
  Memory.read_write_same_from h a v

theorem Memory.wfFrom_cons {m : Memory} {n a : Nat} (v : Byte) (hn : n ≤ a) (ha : a < 65536)
    (h : m.wfFrom (a + 1) = true) : (Memory.cons a v m).wfFrom n = true := by
  unfold Memory.cons
  split
  · exact Memory.wfFrom_mono h (by omega)
  · simp [Memory.wfFrom, *]

theorem Memory.wfFrom_write {m : Memory} {n a : Nat} (v : Byte) (hn : n ≤ a) (ha : a < 65536)
    (h : m.wfFrom n = true) : (m.write a v).wfFrom n = true := by
  induction m generalizing n with
  | nil => exact Memory.wfFrom_cons v hn ha rfl
  | cons cell rest ih =>
    obtain ⟨b, w⟩ := cell
    simp only [Memory.write]
    simp only [Memory.wfFrom, Bool.and_eq_true, decide_eq_true_eq] at h
    split
    · refine Memory.wfFrom_cons v hn ha ?_
      simp only [Memory.wfFrom, Bool.and_eq_true, decide_eq_true_eq]
      exact ⟨⟨⟨by omega, h.1.1.2⟩, h.1.2⟩, h.2⟩
    · split
      · subst_vars; exact Memory.wfFrom_cons v hn ha h.2
      · simp only [Memory.wfFrom, Bool.and_eq_true, decide_eq_true_eq]
        exact ⟨⟨⟨h.1.1.1, h.1.1.2⟩, h.1.2⟩, ih (by omega) h.2⟩

/-- A write to an address of the 16-bit space keeps the canonical form. -/
theorem Memory.wf_write {m : Memory} (h : m.wf = true) (a : Addr) (v : Byte) : (m.write a.toNat v).wf = true :=
  Memory.wfFrom_write v (Nat.zero_le _) a.isLt h

theorem Memory.wf_nil : Memory.wf [] = true := rfl

end Sys2Proof.Machine
end

