-- ==== Sys2Proof/Laws/Agent.lean ====
section
/-! SUPPORT. The laws of the memory agent (R40, R51, R56): its routing is fixed, a read keeps the stored bytes, a write
keeps their canonical form, and what serving a list of transactions comes to. -/

namespace Sys2Proof.Machine

variable (g : MemAgent) (a : Addr) (v : Byte)

@[simp] theorem MemAgent.read_map : (g.read a).2.map = g.map := by
  unfold MemAgent.read; split <;> rfl

/-- No read changes a stored byte. -/
@[simp] theorem MemAgent.read_cells : (g.read a).2.cells = g.cells := by
  unfold MemAgent.read; split <;> rfl

@[simp] theorem MemAgent.write_map : (g.write a v).map = g.map := by
  unfold MemAgent.write; split <;> rfl

/-- Where an access is routed to stored bytes, a read answers the stored byte and has no effect. -/
theorem MemAgent.read_cell {n : Nat} {w : Bool} (h : route g.map a.toNat = .cell n w) :
    g.read a = (g.cells.read n, g) := by
  simp [MemAgent.read, h]

theorem MemAgent.write_cell {n : Nat} (h : route g.map a.toNat = .cell n true) :
    g.write a v = { g with cells := g.cells.write n v } := by
  simp [MemAgent.write, h]

/-- Every cell an address is routed to is one of the 65536. -/
theorem route_cell_lt {map : List Region} {x n : Nat} {w : Bool} (hx : x < 65536) (h : route map x = .cell n w) :
    n < 65536 := by
  induction map with
  | nil => cases h; exact hx
  | cons r rest ih =>
    simp only [route] at h
    split at h
    · split at h <;> cases h
      exact Nat.mod_lt _ (by decide)
    · exact ih h

/-- A write changes no stored byte but that of the cell its address is routed to. -/
theorem MemAgent.write_cells_other {n : Nat} (h : ∀ w, route g.map a.toNat ≠ .cell n w) :
    (g.write a v).cells.read n = g.cells.read n := by
  unfold MemAgent.write
  split
  · exact Memory.read_write_other (fun e => h true (by rw [e]; assumption)) _ _
  · rfl
  · rfl

theorem MemAgent.wf_write (h : g.cells.wf = true) : (g.write a v).cells.wf = true := by
  unfold MemAgent.write
  split
  · exact Memory.wfFrom_write v (Nat.zero_le _) (route_cell_lt a.isLt ‹_›) h
  · exact h
  · exact h

@[simp] theorem MemAgent.serve_nil : g.serve [] = some g := rfl

@[simp] theorem MemAgent.serve_read (ts : List Transaction) :
    g.serve (.read a v :: ts) = if (g.read a).1 = v then (g.read a).2.serve ts else none := rfl

@[simp] theorem MemAgent.serve_write (ts : List Transaction) :
    g.serve (.write a v :: ts) = (g.write a v).serve ts := rfl

theorem MemAgent.serve_append (ts us : List Transaction) : g.serve (ts ++ us) = (g.serve ts).bind (·.serve us) := by
  induction ts generalizing g with
  | nil => rfl
  | cons t ts ih =>
    cases t
    · simp only [List.cons_append, MemAgent.serve_read]; split
      · exact ih _
      · rfl
    · exact ih _

/-- Everything serving keeps: the routing, the canonical form, and the stored bytes no write is routed to. -/
theorem MemAgent.serve_spec {g h : MemAgent} {ts : List Transaction} (hs : g.serve ts = some h) :
    h.map = g.map ∧ (g.cells.wf = true → h.cells.wf = true) ∧
    ∀ n, (∀ a v, Transaction.write a v ∈ ts → ∀ w, route g.map a.toNat ≠ .cell n w) →
      h.cells.read n = g.cells.read n := by
  induction ts generalizing g with
  | nil => cases hs; exact ⟨rfl, id, fun _ _ => rfl⟩
  | cons t ts ih =>
    cases t with
    | read a v =>
      rw [MemAgent.serve_read] at hs; split at hs
      · obtain ⟨h1, h2, h3⟩ := ih hs
        simp only [MemAgent.read_map, MemAgent.read_cells] at h1 h2 h3
        exact ⟨h1, h2, fun n hn => h3 n fun a v hm => hn a v (List.mem_cons_of_mem _ hm)⟩
      · cases hs
    | write a v =>
      rw [MemAgent.serve_write] at hs
      obtain ⟨h1, h2, h3⟩ := ih hs
      simp only [MemAgent.write_map] at h1 h3
      refine ⟨h1, fun hw => h2 (g.wf_write a v hw), fun n hn => ?_⟩
      rw [h3 n fun a v hm => hn a v (List.mem_cons_of_mem _ hm)]
      exact g.write_cells_other a v (hn a v List.mem_cons_self)

/-- A memory made from any cells is canonical. -/
theorem Memory.wf_ofCells (cells : List Host.Cell) : (Memory.ofCells cells).wf = true := by
  induction cells with
  | nil => rfl
  | cons c cs ih => exact Memory.wfFrom_write _ (Nat.zero_le _) (Nat.mod_lt _ (by decide)) ih

end Sys2Proof.Machine
end

