-- ==== Sys2Proof/Laws/Flags.lean ====
section
/-! SUPPORT. The status register's operations by their bits (R88 to R92), the flag computations as the byte they leave,
and the arithmetic helpers (R85, R86). -/

namespace Sys2Proof.Machine

/-- The status register is the byte of its eight bits. -/
theorem eq_statusByte (p : Byte) : p = statusByte (getFlag .c p) (getFlag .z p) (getFlag .i p) (getFlag .d p)
    (p.getLsbD 4) (p.getLsbD 5) (getFlag .v p) (getFlag .n p) := by
  revert p; decide

section
variable (c z i d b4 b5 v n b : Bool)

@[simp] theorem getFlag_c_statusByte : getFlag .c (statusByte c z i d b4 b5 v n) = c := by revert c z i d b4 b5 v n; decide
@[simp] theorem getFlag_z_statusByte : getFlag .z (statusByte c z i d b4 b5 v n) = z := by revert c z i d b4 b5 v n; decide
@[simp] theorem getFlag_i_statusByte : getFlag .i (statusByte c z i d b4 b5 v n) = i := by revert c z i d b4 b5 v n; decide
@[simp] theorem getFlag_d_statusByte : getFlag .d (statusByte c z i d b4 b5 v n) = d := by revert c z i d b4 b5 v n; decide
@[simp] theorem getFlag_v_statusByte : getFlag .v (statusByte c z i d b4 b5 v n) = v := by revert c z i d b4 b5 v n; decide
@[simp] theorem getFlag_n_statusByte : getFlag .n (statusByte c z i d b4 b5 v n) = n := by revert c z i d b4 b5 v n; decide
@[simp] theorem bit4_statusByte : (statusByte c z i d b4 b5 v n).getLsbD 4 = b4 := by revert c z i d b4 b5 v n; decide
@[simp] theorem getElem4_statusByte : (statusByte c z i d b4 b5 v n)[4] = b4 := bit4_statusByte c z i d b4 b5 v n
@[simp] theorem bit5_statusByte : (statusByte c z i d b4 b5 v n).getLsbD 5 = b5 := by revert c z i d b4 b5 v n; decide
@[simp] theorem getElem5_statusByte : (statusByte c z i d b4 b5 v n)[5] = b5 := bit5_statusByte c z i d b4 b5 v n

@[simp] theorem assign_c_statusByte :
    assignFlag .c b (statusByte c z i d b4 b5 v n) = statusByte b z i d b4 b5 v n := by
  revert c z i d b4 b5 v n b; decide
@[simp] theorem assign_z_statusByte :
    assignFlag .z b (statusByte c z i d b4 b5 v n) = statusByte c b i d b4 b5 v n := by
  revert c z i d b4 b5 v n b; decide
@[simp] theorem assign_i_statusByte :
    assignFlag .i b (statusByte c z i d b4 b5 v n) = statusByte c z b d b4 b5 v n := by
  revert c z i d b4 b5 v n b; decide
@[simp] theorem assign_d_statusByte :
    assignFlag .d b (statusByte c z i d b4 b5 v n) = statusByte c z i b b4 b5 v n := by
  revert c z i d b4 b5 v n b; decide
@[simp] theorem assign_v_statusByte :
    assignFlag .v b (statusByte c z i d b4 b5 v n) = statusByte c z i d b4 b5 b n := by
  revert c z i d b4 b5 v n b; decide
@[simp] theorem assign_n_statusByte :
    assignFlag .n b (statusByte c z i d b4 b5 v n) = statusByte c z i d b4 b5 v b := by
  revert c z i d b4 b5 v n b; decide
end

theorem setFlag_eq_assign (f : Flag) (p : Byte) : setFlag f p = assignFlag f true p := rfl

theorem clearFlag_eq_assign (f : Flag) (p : Byte) : clearFlag f p = assignFlag f false p := rfl

/-- `RespondToLoad` writes Z and N and no other bit (R92). -/
theorem respondToLoad_eq (w p : Byte) : respondToLoad w p = statusByte (getFlag .c p) (w == 0) (getFlag .i p)
    (getFlag .d p) (p.getLsbD 4) (p.getLsbD 5) (getFlag .v p) (w.getLsbD 7) := by
  conv => lhs; rw [eq_statusByte p]
  simp [respondToLoad]

/-- ADC writes C, V, N and Z and no other bit (R132). -/
theorem adcFlags_eq (r : Int) (p : Byte) : adcFlags r p =
    statusByte ((getFlag .d p && decide (r > 99)) || decide (r > 255)) (wrap8 r == 0) (getFlag .i p) (getFlag .d p)
      (p.getLsbD 4) (p.getLsbD 5) (decide (r > 127) || decide (r < -128)) ((wrap8 r).getLsbD 7) := by
  conv => lhs; rw [eq_statusByte p]
  simp only [adcFlags, getFlag_d_statusByte, assign_c_statusByte, assign_v_statusByte, assign_n_statusByte,
    assign_z_statusByte]

/-- The compares write N, Z and C and no other bit (R133, R134). -/
theorem compareFlags_eq (r : Int) (p : Byte) : compareFlags r p =
    statusByte (decide (r ≥ 0)) (decide (r = 0)) (getFlag .i p) (getFlag .d p) (p.getLsbD 4) (p.getLsbD 5)
      (getFlag .v p) ((wrap8 r).getLsbD 7) := by
  conv => lhs; rw [eq_statusByte p]
  simp only [compareFlags, assign_c_statusByte, assign_n_statusByte, assign_z_statusByte]

/-- LSR writes C, N and Z and no other bit (R140). -/
theorem lsrFlags_eq (w p : Byte) : lsrFlags w p =
    statusByte (w.getLsbD 0) (lsrValue w == 0) (getFlag .i p) (getFlag .d p) (p.getLsbD 4) (p.getLsbD 5)
      (getFlag .v p) false := by
  conv => lhs; rw [eq_statusByte p]
  simp only [lsrFlags, clearFlag_eq_assign, assign_c_statusByte, assign_n_statusByte, assign_z_statusByte]

/-- `to_signed` is the two's-complement reading. -/
theorem toSigned_eq_toInt (w : Byte) : toSigned w = w.toInt := by
  revert w; decide

/-- `wrap8` is reduction modulo 256 (R86). -/
theorem wrap8_toNat (r : Int) : ((wrap8 r).toNat : Int) = r % 256 := by
  simp [wrap8, BitVec.toNat_ofInt]; omega

theorem decValue_eq (w : Byte) : decValue w = w - 1 := by
  revert w; decide

theorem lsrValue_toNat (w : Byte) : (lsrValue w).toNat = w.toNat / 2 := by
  simp [lsrValue, Nat.shiftRight_eq_div_pow]

end Sys2Proof.Machine
end

