-- ==== Sys2Proof/Laws/Ops.lean ====
section
/-! SUPPORT. What each shared operation over memory and registers does, said once. -/

namespace Sys2Proof.Machine

variable (s : State)

@[simp] theorem logTransaction_eq (t : Transaction) : logTransaction t s = { s with bus := s.bus ++ [t] } := rfl

/-- A read transaction answers what the agent answers, and changes only the agent and the record of transactions. -/
theorem memRead_spec (a : Addr) : memRead a s = ((s.mem.read a).1,
    { s with mem := (s.mem.read a).2, bus := s.bus ++ [.read a (s.mem.read a).1] }) := rfl

/-- A write transaction changes only the agent and the record of transactions. -/
theorem memWrite_spec (a : Addr) (v : Byte) :
    memWrite a v s = { s with mem := s.mem.write a v, bus := s.bus ++ [.write a v] } := rfl

theorem fetchByte_spec : fetchByte s = ((s.mem.read s.pc).1,
    { s with pc := s.pc + 1, mem := (s.mem.read s.pc).2, bus := s.bus ++ [.read s.pc (s.mem.read s.pc).1] }) := rfl

theorem fetchOpcode_spec : fetchOpcode s = ((s.mem.read s.pc).1,
    { s with pc := s.pc + 1, mem := (s.mem.read s.pc).2, bus := [.read s.pc (s.mem.read s.pc).1] }) := rfl

/-- Two reads, low byte first, the second from the agent the first left. -/
theorem read16_spec (a : Addr) : read16 a s =
    let r := s.mem.read a
    let q := r.2.read (a + 1)
    (word16 r.1 q.1, { s with mem := q.2, bus := s.bus ++ [.read a r.1, .read (a + 1) q.1] }) := by
  simp [read16, memRead_spec]

theorem push_spec (v : Byte) : push v s =
    { s with mem := s.mem.write (stackBase + zext16 s.sp) v, sp := s.sp - 1
             bus := s.bus ++ [.write (stackBase + zext16 s.sp) v] } := rfl

theorem pull_spec : pull s =
    let r := s.mem.read (stackBase + zext16 (s.sp + 1))
    (r.1, { s with sp := s.sp + 1, mem := r.2, bus := s.bus ++ [.read (stackBase + zext16 (s.sp + 1)) r.1] }) := rfl

/-- From `s` to `t` the core issued the transactions `ts` and nothing else at the boundary: the agent served them in
order and the record grew by them; the latch, the pending set and the parameters are as they were. -/
structure Issues (ts : List Transaction) (s t : State) : Prop where
  mem : s.mem.serve ts = some t.mem
  bus : t.bus = s.bus ++ ts
  fault : t.fault = s.fault
  pending : t.pending = s.pending
  decodeMap : t.decodeMap = s.decodeMap
  response : t.response = s.response

theorem Issues.refl : Issues [] s s := ⟨rfl, by simp, rfl, rfl, rfl, rfl⟩

theorem Issues.trans {ts us : List Transaction} {s t u : State} (h : Issues ts s t) (k : Issues us t u) :
    Issues (ts ++ us) s u :=
  ⟨by rw [MemAgent.serve_append, h.mem]; exact k.mem, by rw [k.bus, h.bus, List.append_assoc],
    k.fault.trans h.fault, k.pending.trans h.pending, k.decodeMap.trans h.decodeMap, k.response.trans h.response⟩

/-- An update of registers issues nothing. -/
theorem Issues.regs {ts : List Transaction} {s t u : State} (h : Issues ts s t) (hm : u.mem = t.mem) (hb : u.bus = t.bus)
    (hf : u.fault = t.fault) (hp : u.pending = t.pending) (hd : u.decodeMap = t.decodeMap)
    (hr : u.response = t.response) : Issues ts s u :=
  ⟨hm ▸ h.mem, hb ▸ h.bus, hf ▸ h.fault, hp ▸ h.pending, hd ▸ h.decodeMap, hr ▸ h.response⟩

theorem memRead_issues (a : Addr) : Issues [.read a (memRead a s).1] s (memRead a s).2 :=
  ⟨by simp [memRead_spec], rfl, rfl, rfl, rfl, rfl⟩

theorem memWrite_issues (a : Addr) (v : Byte) : Issues [.write a v] s (memWrite a v s) :=
  ⟨rfl, rfl, rfl, rfl, rfl, rfl⟩

theorem fetchByte_issues : Issues [.read s.pc (fetchByte s).1] s (fetchByte s).2 :=
  (memRead_issues s s.pc).regs rfl rfl rfl rfl rfl rfl

theorem push_issues (v : Byte) : Issues [.write (stackBase + zext16 s.sp) v] s (push v s) :=
  ⟨rfl, rfl, rfl, rfl, rfl, rfl⟩

theorem pull_issues : Issues [.read (stackBase + zext16 (s.sp + 1)) (pull s).1] s (pull s).2 :=
  ⟨by simp [pull_spec], rfl, rfl, rfl, rfl, rfl⟩

/-- A state an interrupt response gives is taken with the parameters of the run and in canonical form. -/
theorem takeResponse_spec (r : State) : (takeResponse s r).decodeMap = s.decodeMap ∧
    (takeResponse s r).response = s.response ∧ (takeResponse s r).mem.map = s.mem.map ∧
    (takeResponse s r).mem.cells.wf = true :=
  ⟨rfl, rfl, rfl, Memory.wf_ofCells _⟩

theorem raiseDecodeFault_spec (f : DecodeFault) : raiseDecodeFault f s = { s with fault := some f } := rfl

theorem zext16_toNat (v : Byte) : (zext16 v).toNat = v.toNat := by
  simp [zext16]; omega

/-- A stack slot's address, as a number: the slot's index above `STACK_BASE`. -/
theorem stackSlot_toNat (sp : Byte) : (stackBase + zext16 sp).toNat = 0x100 + sp.toNat := by
  have := sp.isLt
  simp [stackBase, BitVec.toNat_add, zext16_toNat]; omega

/-- `hi ‖ lo` as a number. -/
theorem word16_toNat (lo hi : Byte) : (word16 lo hi).toNat = lo.toNat + 256 * hi.toNat := by
  have := lo.isLt
  simp only [word16, BitVec.toNat_append]
  rw [Nat.shiftLeft_eq, Nat.or_comm, ← Nat.mul_comm (2 ^ 8), Nat.or_comm, ← Nat.two_pow_add_eq_or_of_lt (by omega)]
  omega

theorem highByte_toNat (w : Addr) : (highByte w).toNat = w.toNat / 256 := by
  have := w.isLt
  simp [highByte, BitVec.extractLsb'_toNat, Nat.shiftRight_eq_div_pow]; omega

theorem lowByte_toNat (w : Addr) : (lowByte w).toNat = w.toNat % 256 := by
  simp [lowByte, BitVec.extractLsb'_toNat]

@[simp] theorem word16_low_high (w : Addr) : word16 (lowByte w) (highByte w) = w := by
  apply BitVec.eq_of_toNat_eq; rw [word16_toNat, lowByte_toNat, highByte_toNat]; omega

@[simp] theorem lowByte_word16 (lo hi : Byte) : lowByte (word16 lo hi) = lo := by
  apply BitVec.eq_of_toNat_eq; rw [lowByte_toNat, word16_toNat]; have := lo.isLt; omega

@[simp] theorem highByte_word16 (lo hi : Byte) : highByte (word16 lo hi) = hi := by
  apply BitVec.eq_of_toNat_eq; rw [highByte_toNat, word16_toNat]; have := lo.isLt; omega

/-- The sign extension of a byte is its signed reading, modulo 2^16 (R6). -/
theorem sext16_eq_ofInt (d : Byte) : sext16 d = BitVec.ofInt 16 d.toInt := by
  revert d; decide

/-- Setting one kind pending keeps the set's canonical form. -/
theorem insertKind_key_mem {k j : IntKind} {ks : List IntKind} (h : j ∈ insertKind k ks) : j = k ∨ j ∈ ks := by
  induction ks with
  | nil => simpa [insertKind] using h
  | cons i rest ih =>
    simp only [insertKind] at h
    split at h
    · simpa using h
    · split at h
      · exact .inr h
      · rcases List.mem_cons.mp h with h | h
        · exact .inr (by simp [h])
        · rcases ih h with h | h
          · exact .inl h
          · exact .inr (by simp [h])

theorem pendingWf_insertKind {k : IntKind} {ks : List IntKind} (h : pendingWf ks = true) :
    pendingWf (insertKind k ks) = true := by
  simp only [pendingWf, decide_eq_true_eq] at *
  induction ks with
  | nil => simp [insertKind]
  | cons i rest ih =>
    rw [List.pairwise_cons] at h
    simp only [insertKind]
    split
    · refine List.pairwise_cons.mpr ⟨fun j hj => ?_, List.pairwise_cons.mpr h⟩
      rcases List.mem_cons.mp hj with rfl | hj
      · assumption
      · exact Nat.lt_trans ‹_› (h.1 j hj)
    · split
      · exact List.pairwise_cons.mpr h
      · refine List.pairwise_cons.mpr ⟨fun j hj => ?_, ih h.2⟩
        rcases insertKind_key_mem hj with rfl | hj
        · omega
        · exact h.1 j hj

/-- What setting a kind pending does to the set (R27). -/
theorem mem_insertKind {k j : IntKind} {ks : List IntKind} : j ∈ insertKind k ks ↔ j = k ∨ j ∈ ks := by
  refine ⟨insertKind_key_mem, ?_⟩
  have key_inj : ∀ x y : IntKind, x.key = y.key → x = y := by
    intro x y h; cases x <;> cases y <;> simp_all [IntKind.key]
  induction ks with
  | nil => rintro (rfl | h) <;> simp_all [insertKind]
  | cons i rest ih =>
    intro h
    simp only [insertKind]
    split
    · simpa using h
    · split
      · rcases h with rfl | h
        · simp [key_inj _ _ ‹_›]
        · exact h
      · rcases h with rfl | h
        · exact List.mem_cons_of_mem _ (ih (.inl rfl))
        · rcases List.mem_cons.mp h with rfl | h
          · simp
          · exact List.mem_cons_of_mem _ (ih (.inr h))

/-- A set of kinds listed in any order becomes its one canonical listing. -/
theorem pendingWf_foldr_insertKind (ks : List IntKind) : pendingWf (ks.foldr insertKind []) = true := by
  induction ks with
  | nil => rfl
  | cons k ks ih => exact pendingWf_insertKind ih

end Sys2Proof.Machine
end

