-- ==== Sys2Proof/Laws/Operands.lean ====
section
/-! SUPPORT. What each resolution does, said once (R97 to R112): the value or address it gives, how far it moves `PC`,
and the transactions it issues, for any memory agent. -/

namespace Sys2Proof.Machine

variable (s : State)

/-- In mode Absolute two operand bytes are read, low byte first, and `PC` moves by 2 (R98, R106). -/
theorem absoluteEa_spec : absoluteEa s =
    let r := s.mem.read s.pc
    let q := r.2.read (s.pc + 1)
    (word16 r.1 q.1,
      { s with pc := s.pc + 2, mem := q.2, bus := s.bus ++ [.read s.pc r.1, .read (s.pc + 1) q.1] }) := by
  simp [absoluteEa, read16_spec, advancePc, State.setPc]

theorem zeroPageEa_spec : zeroPageEa s = (zext16 (s.mem.read s.pc).1,
    { s with pc := s.pc + 1, mem := (s.mem.read s.pc).2, bus := s.bus ++ [.read s.pc (s.mem.read s.pc).1] }) := rfl

theorem zeroPageIndexedEa_spec (index : Byte) : zeroPageIndexedEa index s =
    (zext16 (s.mem.read s.pc).1 + zext16 index,
      { s with pc := s.pc + 1, mem := (s.mem.read s.pc).2
               bus := s.bus ++ [.read s.pc (s.mem.read s.pc).1] }) := rfl

/-- An indirect indexed address takes three reads, each from the agent the one before left (R103, R110). -/
theorem indirectIndexedEa_spec (index : Byte) : indirectIndexedEa index s =
    let z := s.mem.read s.pc
    let r := z.2.read (zext16 z.1)
    let q := r.2.read (zext16 z.1 + 1)
    (word16 r.1 q.1 + zext16 index,
      { s with pc := s.pc + 1, mem := q.2
               bus := s.bus ++ [.read s.pc z.1, .read (zext16 z.1) r.1, .read (zext16 z.1 + 1) q.1] }) := by
  simp [indirectIndexedEa, fetchByte_spec, memRead_spec]

/-- The branch resolution reads the displacement and changes nothing else (R99). -/
theorem readRelative_spec : readRelative s = (s.pc + 1 + sext16 (s.mem.read s.pc).1,
    { s with pc := s.pc + 1, mem := (s.mem.read s.pc).2, bus := s.bus ++ [.read s.pc (s.mem.read s.pc).1] }) := rfl

/-- The address supplier reads two bytes and leaves `PC` (R112). -/
theorem addrOf_spec : addrOf s =
    let r := s.mem.read s.pc
    let q := r.2.read (s.pc + 1)
    (word16 r.1 q.1, { s with mem := q.2, bus := s.bus ++ [.read s.pc r.1, .read (s.pc + 1) q.1] }) :=
  read16_spec s s.pc

/-- A read resolution changes `PC`, the agent and the record of transactions only. -/
theorem readOp_frame (m : ReadMode) : (readOp m s).2 =
    { s with pc := (readOp m s).2.pc, mem := (readOp m s).2.mem, bus := (readOp m s).2.bus } := by
  cases m <;> rfl

/-- A write resolution changes `PC`, the agent, the record of transactions and `A` only. -/
theorem writeOp_frame (m : WriteMode) (v : Byte) :
    writeOp m v s = { s with pc := (writeOp m v s).pc, bus := (writeOp m v s).bus
                             a := (writeOp m v s).a, mem := (writeOp m v s).mem } := by
  cases m <;> rfl

theorem absoluteEa_issues : ∃ ts, Issues ts s (absoluteEa s).2 :=
  ⟨_, ((memRead_issues s s.pc).trans (memRead_issues _ (s.pc + 1))).regs rfl rfl rfl rfl rfl rfl⟩

theorem indirectIndexedEa_issues (index : Byte) : ∃ ts, Issues ts s (indirectIndexedEa index s).2 :=
  ⟨_, ((fetchByte_issues s).trans (memRead_issues _ _)).trans (memRead_issues _ _)⟩

/-- A read resolution's whole effect at the memory boundary is some transactions, served in order. -/
theorem readOp_issues (m : ReadMode) : ∃ ts, Issues ts s (readOp m s).2 := by
  cases m with
  | immediate => exact ⟨_, fetchByte_issues s⟩
  | accumulator => exact ⟨_, .refl s⟩
  | absolute => obtain ⟨_, h⟩ := absoluteEa_issues s; exact ⟨_, h.trans (memRead_issues _ _)⟩
  | zeroPage | zeroPageIndexedX => exact ⟨_, (fetchByte_issues s).trans (memRead_issues _ _)⟩
  | zeroPageIndirectIndexedX => obtain ⟨_, h⟩ := indirectIndexedEa_issues s s.x; exact ⟨_, h.trans (memRead_issues _ _)⟩

/-- The same of a write resolution. -/
theorem writeOp_issues (m : WriteMode) (v : Byte) : ∃ ts, Issues ts s (writeOp m v s) := by
  cases m with
  | accumulator => exact ⟨_, (Issues.refl s).regs rfl rfl rfl rfl rfl rfl⟩
  | absolute => obtain ⟨_, h⟩ := absoluteEa_issues s; exact ⟨_, h.trans (memWrite_issues _ _ _)⟩
  | zeroPage | zeroPageIndexedY => exact ⟨_, (fetchByte_issues s).trans (memWrite_issues _ _ _)⟩
  | zeroPageIndirectIndexedY =>
    obtain ⟨_, h⟩ := indirectIndexedEa_issues s s.y; exact ⟨_, h.trans (memWrite_issues _ _ _)⟩

theorem readRelative_issues : Issues [.read s.pc (s.mem.read s.pc).1] s (readRelative s).2 := fetchByte_issues s

theorem addrOf_issues : ∃ ts, Issues ts s (addrOf s).2 :=
  ⟨_, (memRead_issues s s.pc).trans (memRead_issues _ (s.pc + 1))⟩

end Sys2Proof.Machine
end

