-- ==== Sys2Proof/Laws/Control.lean ====
section
/-! SUPPORT. What the shared branch does, said once (R153, R154). -/

namespace Sys2Proof.Machine

/-- A branch moves `PC` to the target or past the displacement byte, reads that byte, and changes nothing else. -/
theorem branchIf_spec (cond : Bool) (s : State) : branchIf cond s =
    { s with pc := if cond then s.pc + 1 + sext16 (s.mem.read s.pc).1 else s.pc + 1
             mem := (s.mem.read s.pc).2, bus := s.bus ++ [.read s.pc (s.mem.read s.pc).1] } := by
  cases cond <;> simp [branchIf, readRelative_spec, State.setPc]

end Sys2Proof.Machine
end

