-- ==== Sys2Proof/Laws/Exec.lean ====
section
/-! SUPPORT. What every instruction does at the memory boundary, said once (R40 to R42, R48): it completes, and it
changes the memory agent by its transactions only. -/

namespace Sys2Proof.Machine

section
variable (m : ReadMode) (s : State)

theorem lda_issues : ∃ ts, Issues ts s (lda m s) :=
  (readOp_issues s m).imp fun _ h => h.regs rfl rfl rfl rfl rfl rfl

theorem ldx_issues : ∃ ts, Issues ts s (ldx m s) :=
  (readOp_issues s m).imp fun _ h => h.regs rfl rfl rfl rfl rfl rfl

theorem ldy_issues : ∃ ts, Issues ts s (ldy m s) :=
  (readOp_issues s m).imp fun _ h => h.regs rfl rfl rfl rfl rfl rfl

theorem andA_issues : ∃ ts, Issues ts s (andA m s) :=
  (readOp_issues s m).imp fun _ h => h.regs rfl rfl rfl rfl rfl rfl

theorem ora_issues : ∃ ts, Issues ts s (ora m s) :=
  (readOp_issues s m).imp fun _ h => h.regs rfl rfl rfl rfl rfl rfl

theorem adc_issues : ∃ ts, Issues ts s (adc m s) :=
  (readOp_issues s m).imp fun _ h => h.regs rfl rfl rfl rfl rfl rfl

theorem cmp_issues : ∃ ts, Issues ts s (cmp m s) :=
  (readOp_issues s m).imp fun _ h => h.regs rfl rfl rfl rfl rfl rfl

theorem cpy_issues : ∃ ts, Issues ts s (cpy m s) :=
  (readOp_issues s m).imp fun _ h => h.regs rfl rfl rfl rfl rfl rfl

end

theorem lsr_issues (m : RmwMode) (s : State) : ∃ ts, Issues ts s (lsr m s) := by
  obtain ⟨_, h⟩ := readOp_issues s (rmwRead m)
  have h' := h.regs (u := updateP (lsrFlags (readOp (rmwRead m) s).1) (readOp (rmwRead m) s).2) rfl rfl rfl rfl rfl rfl
  obtain ⟨_, k⟩ := writeOp_issues (updateP (lsrFlags (readOp (rmwRead m) s).1) (readOp (rmwRead m) s).2) (rmwWrite m)
    (lsrValue (readOp (rmwRead m) s).1)
  exact ⟨_, h'.trans k⟩

theorem dec_issues (m : RmwMode) (s : State) : ∃ ts, Issues ts s (dec m s) := by
  obtain ⟨_, h⟩ := readOp_issues s (rmwRead m)
  obtain ⟨_, k⟩ := writeOp_issues (readOp (rmwRead m) s).2 (rmwWrite m) (decValue (readOp (rmwRead m) s).1)
  exact ⟨_, (h.trans k).regs rfl rfl rfl rfl rfl rfl⟩

theorem jsr_issues (s : State) : ∃ ts, Issues ts s (jsr s) := by
  obtain ⟨_, h⟩ := addrOf_issues s
  have h' := h.regs (u := advancePc 1 (addrOf s).2) rfl rfl rfl rfl rfl rfl
  generalize hr : addrOf s = r at h h'
  generalize hq : advancePc 1 r.2 = q at h'
  have k := (h'.trans (push_issues q (highByte q.pc))).trans (push_issues _ (lowByte (push (highByte q.pc) q).pc))
  refine ⟨_, k.regs ?_ ?_ ?_ ?_ ?_ ?_⟩ <;> simp only [jsr, hr, hq, State.setPc]

theorem rts_issues (s : State) : ∃ ts, Issues ts s (rts s) := by
  have h := (pull_issues s).regs (u := setPcl (pull s).1 (pull s).2) rfl rfl rfl rfl rfl rfl
  exact ⟨_, ((h.trans (pull_issues _)).regs rfl rfl rfl rfl rfl rfl)⟩

theorem branchIf_issues (cond : Bool) (s : State) : ∃ ts, Issues ts s (branchIf cond s) := by
  refine ⟨_, (readRelative_issues s).regs ?_ ?_ ?_ ?_ ?_ ?_⟩ <;> simp [branchIf_spec, readRelative_spec]

/-- Every instruction completes in every state, with any agent; all it does at the memory boundary is to issue
transactions, each served in order. -/
theorem exec_issues (i : Instr) (s : State) : ∃ t ts, exec i s = .next t ∧ Issues ts s t := by
  suffices h : ∃ t, exec i s = .next t ∧ ∃ ts, Issues ts s t by
    obtain ⟨t, h, ts, k⟩ := h; exact ⟨t, ts, h, k⟩
  cases i
  case staAbsolute => exact ⟨_, rfl, writeOp_issues s .absolute s.a⟩
  case staAccumulator => exact ⟨_, rfl, writeOp_issues s .accumulator s.a⟩
  case staZeroPage => exact ⟨_, rfl, writeOp_issues s .zeroPage s.a⟩
  case staZeroPageIndexedY => exact ⟨_, rfl, writeOp_issues s .zeroPageIndexedY s.a⟩
  case staZeroPageIndirectIndexedY => exact ⟨_, rfl, writeOp_issues s .zeroPageIndirectIndexedY s.a⟩
  case decAbsolute => exact ⟨_, rfl, dec_issues .absolute s⟩
  case decAccumulator => exact ⟨_, rfl, dec_issues .accumulator s⟩
  case decZeroPage => exact ⟨_, rfl, dec_issues .zeroPage s⟩
  case lsrAbsolute => exact ⟨_, rfl, lsr_issues .absolute s⟩
  case lsrAccumulator => exact ⟨_, rfl, lsr_issues .accumulator s⟩
  case lsrZeroPage => exact ⟨_, rfl, lsr_issues .zeroPage s⟩
  case jmpAbsolute =>
    obtain ⟨ts, h⟩ := addrOf_issues s; exact ⟨_, rfl, ts, h.regs rfl rfl rfl rfl rfl rfl⟩
  case jsrAbsolute => exact ⟨_, rfl, jsr_issues s⟩
  case rts => exact ⟨_, rfl, rts_issues s⟩
  case beqRelative => exact ⟨_, rfl, branchIf_issues _ s⟩
  case bneRelative => exact ⟨_, rfl, branchIf_issues _ s⟩
  case txs | dey | sei | cld | clc | sec => exact ⟨_, rfl, _, (Issues.refl s).regs rfl rfl rfl rfl rfl rfl⟩
  case ldaImmediate => exact ⟨_, rfl, lda_issues .immediate s⟩
  case ldaAbsolute => exact ⟨_, rfl, lda_issues .absolute s⟩
  case ldaAccumulator => exact ⟨_, rfl, lda_issues .accumulator s⟩
  case ldaZeroPage => exact ⟨_, rfl, lda_issues .zeroPage s⟩
  case ldaZeroPageIndexedX => exact ⟨_, rfl, lda_issues .zeroPageIndexedX s⟩
  case ldaZeroPageIndirectIndexedX => exact ⟨_, rfl, lda_issues .zeroPageIndirectIndexedX s⟩
  case ldxImmediate => exact ⟨_, rfl, ldx_issues .immediate s⟩
  case ldxAbsolute => exact ⟨_, rfl, ldx_issues .absolute s⟩
  case ldxAccumulator => exact ⟨_, rfl, ldx_issues .accumulator s⟩
  case ldxZeroPage => exact ⟨_, rfl, ldx_issues .zeroPage s⟩
  case ldxZeroPageIndexedX => exact ⟨_, rfl, ldx_issues .zeroPageIndexedX s⟩
  case ldxZeroPageIndirectIndexedX => exact ⟨_, rfl, ldx_issues .zeroPageIndirectIndexedX s⟩
  case ldyImmediate => exact ⟨_, rfl, ldy_issues .immediate s⟩
  case ldyAbsolute => exact ⟨_, rfl, ldy_issues .absolute s⟩
  case ldyAccumulator => exact ⟨_, rfl, ldy_issues .accumulator s⟩
  case ldyZeroPage => exact ⟨_, rfl, ldy_issues .zeroPage s⟩
  case ldyZeroPageIndexedX => exact ⟨_, rfl, ldy_issues .zeroPageIndexedX s⟩
  case ldyZeroPageIndirectIndexedX => exact ⟨_, rfl, ldy_issues .zeroPageIndirectIndexedX s⟩
  case andImmediate => exact ⟨_, rfl, andA_issues .immediate s⟩
  case andAbsolute => exact ⟨_, rfl, andA_issues .absolute s⟩
  case andAccumulator => exact ⟨_, rfl, andA_issues .accumulator s⟩
  case andZeroPage => exact ⟨_, rfl, andA_issues .zeroPage s⟩
  case andZeroPageIndexedX => exact ⟨_, rfl, andA_issues .zeroPageIndexedX s⟩
  case andZeroPageIndirectIndexedX => exact ⟨_, rfl, andA_issues .zeroPageIndirectIndexedX s⟩
  case oraImmediate => exact ⟨_, rfl, ora_issues .immediate s⟩
  case oraAbsolute => exact ⟨_, rfl, ora_issues .absolute s⟩
  case oraAccumulator => exact ⟨_, rfl, ora_issues .accumulator s⟩
  case oraZeroPage => exact ⟨_, rfl, ora_issues .zeroPage s⟩
  case oraZeroPageIndexedX => exact ⟨_, rfl, ora_issues .zeroPageIndexedX s⟩
  case oraZeroPageIndirectIndexedX => exact ⟨_, rfl, ora_issues .zeroPageIndirectIndexedX s⟩
  case adcImmediate => exact ⟨_, rfl, adc_issues .immediate s⟩
  case adcAbsolute => exact ⟨_, rfl, adc_issues .absolute s⟩
  case adcAccumulator => exact ⟨_, rfl, adc_issues .accumulator s⟩
  case adcZeroPage => exact ⟨_, rfl, adc_issues .zeroPage s⟩
  case adcZeroPageIndexedX => exact ⟨_, rfl, adc_issues .zeroPageIndexedX s⟩
  case adcZeroPageIndirectIndexedX => exact ⟨_, rfl, adc_issues .zeroPageIndirectIndexedX s⟩
  case cmpImmediate => exact ⟨_, rfl, cmp_issues .immediate s⟩
  case cmpAbsolute => exact ⟨_, rfl, cmp_issues .absolute s⟩
  case cmpAccumulator => exact ⟨_, rfl, cmp_issues .accumulator s⟩
  case cmpZeroPage => exact ⟨_, rfl, cmp_issues .zeroPage s⟩
  case cmpZeroPageIndexedX => exact ⟨_, rfl, cmp_issues .zeroPageIndexedX s⟩
  case cmpZeroPageIndirectIndexedX => exact ⟨_, rfl, cmp_issues .zeroPageIndirectIndexedX s⟩
  case cpyImmediate => exact ⟨_, rfl, cpy_issues .immediate s⟩
  case cpyAbsolute => exact ⟨_, rfl, cpy_issues .absolute s⟩
  case cpyAccumulator => exact ⟨_, rfl, cpy_issues .accumulator s⟩
  case cpyZeroPage => exact ⟨_, rfl, cpy_issues .zeroPage s⟩
  case cpyZeroPageIndexedX => exact ⟨_, rfl, cpy_issues .zeroPageIndexedX s⟩
  case cpyZeroPageIndirectIndexedX => exact ⟨_, rfl, cpy_issues .zeroPageIndirectIndexedX s⟩

end Sys2Proof.Machine
end

