-- ==== Sys2Proof/Laws/PerInstr.lean ====
section
/-! SUPPORT. Statements for all instructions, one lemma per constructor. -/

namespace Sys2Proof.Laws.RoundTrip

/-- The instruction's pair is admitted (R72), and its dispatch word decodes to it (R66). -/
def Statement (i : Instr) : Prop := i.wellFormed = true ∧ decode (encode i) = .ok i

theorem ldaImmediate : Statement .ldaImmediate := ⟨rfl, rfl⟩
theorem ldaAbsolute : Statement .ldaAbsolute := ⟨rfl, rfl⟩
theorem ldaAccumulator : Statement .ldaAccumulator := ⟨rfl, rfl⟩
theorem ldaZeroPage : Statement .ldaZeroPage := ⟨rfl, rfl⟩
theorem ldaZeroPageIndexedX : Statement .ldaZeroPageIndexedX := ⟨rfl, rfl⟩
theorem ldaZeroPageIndirectIndexedX : Statement .ldaZeroPageIndirectIndexedX := ⟨rfl, rfl⟩
theorem staAbsolute : Statement .staAbsolute := ⟨rfl, rfl⟩
theorem staAccumulator : Statement .staAccumulator := ⟨rfl, rfl⟩
theorem staZeroPage : Statement .staZeroPage := ⟨rfl, rfl⟩
theorem staZeroPageIndexedY : Statement .staZeroPageIndexedY := ⟨rfl, rfl⟩
theorem staZeroPageIndirectIndexedY : Statement .staZeroPageIndirectIndexedY := ⟨rfl, rfl⟩
theorem ldxImmediate : Statement .ldxImmediate := ⟨rfl, rfl⟩
theorem ldxAbsolute : Statement .ldxAbsolute := ⟨rfl, rfl⟩
theorem ldxAccumulator : Statement .ldxAccumulator := ⟨rfl, rfl⟩
theorem ldxZeroPage : Statement .ldxZeroPage := ⟨rfl, rfl⟩
theorem ldxZeroPageIndexedX : Statement .ldxZeroPageIndexedX := ⟨rfl, rfl⟩
theorem ldxZeroPageIndirectIndexedX : Statement .ldxZeroPageIndirectIndexedX := ⟨rfl, rfl⟩
theorem ldyImmediate : Statement .ldyImmediate := ⟨rfl, rfl⟩
theorem ldyAbsolute : Statement .ldyAbsolute := ⟨rfl, rfl⟩
theorem ldyAccumulator : Statement .ldyAccumulator := ⟨rfl, rfl⟩
theorem ldyZeroPage : Statement .ldyZeroPage := ⟨rfl, rfl⟩
theorem ldyZeroPageIndexedX : Statement .ldyZeroPageIndexedX := ⟨rfl, rfl⟩
theorem ldyZeroPageIndirectIndexedX : Statement .ldyZeroPageIndirectIndexedX := ⟨rfl, rfl⟩
theorem txs (m : BitVec 4) : Statement (.txs m) := by revert m; unfold Statement; decide
theorem andImmediate : Statement .andImmediate := ⟨rfl, rfl⟩
theorem andAbsolute : Statement .andAbsolute := ⟨rfl, rfl⟩
theorem andAccumulator : Statement .andAccumulator := ⟨rfl, rfl⟩
theorem andZeroPage : Statement .andZeroPage := ⟨rfl, rfl⟩
theorem andZeroPageIndexedX : Statement .andZeroPageIndexedX := ⟨rfl, rfl⟩
theorem andZeroPageIndirectIndexedX : Statement .andZeroPageIndirectIndexedX := ⟨rfl, rfl⟩
theorem oraImmediate : Statement .oraImmediate := ⟨rfl, rfl⟩
theorem oraAbsolute : Statement .oraAbsolute := ⟨rfl, rfl⟩
theorem oraAccumulator : Statement .oraAccumulator := ⟨rfl, rfl⟩
theorem oraZeroPage : Statement .oraZeroPage := ⟨rfl, rfl⟩
theorem oraZeroPageIndexedX : Statement .oraZeroPageIndexedX := ⟨rfl, rfl⟩
theorem oraZeroPageIndirectIndexedX : Statement .oraZeroPageIndirectIndexedX := ⟨rfl, rfl⟩
theorem adcImmediate : Statement .adcImmediate := ⟨rfl, rfl⟩
theorem adcAbsolute : Statement .adcAbsolute := ⟨rfl, rfl⟩
theorem adcAccumulator : Statement .adcAccumulator := ⟨rfl, rfl⟩
theorem adcZeroPage : Statement .adcZeroPage := ⟨rfl, rfl⟩
theorem adcZeroPageIndexedX : Statement .adcZeroPageIndexedX := ⟨rfl, rfl⟩
theorem adcZeroPageIndirectIndexedX : Statement .adcZeroPageIndirectIndexedX := ⟨rfl, rfl⟩
theorem cmpImmediate : Statement .cmpImmediate := ⟨rfl, rfl⟩
theorem cmpAbsolute : Statement .cmpAbsolute := ⟨rfl, rfl⟩
theorem cmpAccumulator : Statement .cmpAccumulator := ⟨rfl, rfl⟩
theorem cmpZeroPage : Statement .cmpZeroPage := ⟨rfl, rfl⟩
theorem cmpZeroPageIndexedX : Statement .cmpZeroPageIndexedX := ⟨rfl, rfl⟩
theorem cmpZeroPageIndirectIndexedX : Statement .cmpZeroPageIndirectIndexedX := ⟨rfl, rfl⟩
theorem cpyImmediate : Statement .cpyImmediate := ⟨rfl, rfl⟩
theorem cpyAbsolute : Statement .cpyAbsolute := ⟨rfl, rfl⟩
theorem cpyAccumulator : Statement .cpyAccumulator := ⟨rfl, rfl⟩
theorem cpyZeroPage : Statement .cpyZeroPage := ⟨rfl, rfl⟩
theorem cpyZeroPageIndexedX : Statement .cpyZeroPageIndexedX := ⟨rfl, rfl⟩
theorem cpyZeroPageIndirectIndexedX : Statement .cpyZeroPageIndirectIndexedX := ⟨rfl, rfl⟩
theorem decAbsolute : Statement .decAbsolute := ⟨rfl, rfl⟩
theorem decAccumulator : Statement .decAccumulator := ⟨rfl, rfl⟩
theorem decZeroPage : Statement .decZeroPage := ⟨rfl, rfl⟩
theorem dey (m : BitVec 4) : Statement (.dey m) := by revert m; unfold Statement; decide
theorem lsrAbsolute : Statement .lsrAbsolute := ⟨rfl, rfl⟩
theorem lsrAccumulator : Statement .lsrAccumulator := ⟨rfl, rfl⟩
theorem lsrZeroPage : Statement .lsrZeroPage := ⟨rfl, rfl⟩
theorem jmpAbsolute : Statement .jmpAbsolute := ⟨rfl, rfl⟩
theorem jsrAbsolute : Statement .jsrAbsolute := ⟨rfl, rfl⟩
theorem rts (m : BitVec 4) : Statement (.rts m) := by revert m; unfold Statement; decide
theorem beqRelative : Statement .beqRelative := ⟨rfl, rfl⟩
theorem bneRelative : Statement .bneRelative := ⟨rfl, rfl⟩
theorem sei (m : BitVec 4) : Statement (.sei m) := by revert m; unfold Statement; decide
theorem cld (m : BitVec 4) : Statement (.cld m) := by revert m; unfold Statement; decide
theorem clc (m : BitVec 4) : Statement (.clc m) := by revert m; unfold Statement; decide
theorem sec (m : BitVec 4) : Statement (.sec m) := by revert m; unfold Statement; decide

end Sys2Proof.Laws.RoundTrip
end

