-- ==== Sys2Proof/Laws/Step.lean ====
section
/-! SUPPORT. What a step can do, said once: every statement about a step follows from these cases. -/

namespace Sys2Proof.Machine

variable (s : State)

/-- A ready core's step is the fetch and the dispatch. -/
theorem step_of_ready (h : Ready s) : step s = fetchAndDispatch s := by
  simp [step, h.1, h.2]

/-- The step of a ready core, by what the byte the agent answers at `PC` stands for. -/
theorem fetchAndDispatch_eq : fetchAndDispatch s =
    match decodeByte s.decodeMap (s.mem.read s.pc).1 with
    | .error f => .next { s with pc := s.pc + 1, mem := (s.mem.read s.pc).2, bus := [.read s.pc (s.mem.read s.pc).1]
                                 fault := some f }
    | .ok i => exec i { s with pc := s.pc + 1, mem := (s.mem.read s.pc).2, bus := [.read s.pc (s.mem.read s.pc).1] } := by
  simp only [fetchAndDispatch, fetchOpcode_spec, decodeByte, dispatch]
  cases s.decodeMap.lookup (s.mem.read s.pc).1 with
  | none => rfl
  | some dw => cases h : decode dw <;> simp [h, raiseDecodeFault_spec]

/-- The cases of a step that answers a next state: a halted core stays as it is; a connected interrupt response gives
the state; a decode fault is latched after the fetch; or the decoded instruction runs after the fetch. -/
theorem step_cases {s t : State} (h : step s = .next t) :
    (s.fault ≠ none ∧ t = s) ∨
    (s.fault = none ∧ s.pending ≠ [] ∧ s.response ≠ .refuse ∧ ∃ r, t = takeResponse s r) ∨
    (Ready s ∧ ∃ f, decodeByte s.decodeMap (s.mem.read s.pc).1 = .error f ∧
      t = { s with pc := s.pc + 1, mem := (s.mem.read s.pc).2, bus := [.read s.pc (s.mem.read s.pc).1]
                   fault := some f }) ∨
    (Ready s ∧ ∃ i, decodeByte s.decodeMap (s.mem.read s.pc).1 = .ok i ∧
      exec i { s with pc := s.pc + 1, mem := (s.mem.read s.pc).2, bus := [.read s.pc (s.mem.read s.pc).1] } = .next t) := by
  by_cases hr : Ready s
  · rw [step_of_ready s hr, fetchAndDispatch_eq] at h
    cases hd : decodeByte s.decodeMap (s.mem.read s.pc).1 with
    | error f => rw [hd] at h; exact .inr (.inr (.inl ⟨hr, f, rfl, by simpa using h.symm⟩))
    | ok i => rw [hd] at h; exact .inr (.inr (.inr ⟨hr, i, rfl, h⟩))
  · cases hf : s.fault with
    | some f => simp only [step, hf, Host.Outcome.next.injEq] at h; exact .inl ⟨by simp, h.symm⟩
    | none =>
      cases hp : s.pending with
      | nil => exact absurd ⟨hf, hp⟩ hr
      | cons k ks =>
        refine .inr (.inl ⟨rfl, by simp, ?_⟩)
        simp only [step, hf, hp, intResponse] at h
        split at h
        · cases h
        · split at h <;> cases h
          exact ⟨by simp [*], _, rfl⟩

/-- Nothing a step does can fault: the only stop is the refusal of a pending interrupt (R175, R178). -/
theorem step_ne_fault (r : Fault) : step s ≠ .fault r := nomatch r

end Sys2Proof.Machine
end

