-- ==== Sys2Proof/Tests/Slice0.lean ====
section
/-! SUPPORT. The model's own tests. The expected results are those of 95_test_vectors.md and 96_test_programs.md (named in
each docstring) or of the encoding tables of spec/. The last part gives, for every statement with hypotheses, a concrete
state and operands that meet them. -/

namespace Sys2Proof.Tests

open Machine

/-! ### Small states -/

/-- Reset, with the instruction's bytes at an address and `PC` there. -/
def bootAt (pc : Addr) (bytes : List Byte) : State :=
  { State.reset with pc := pc, mem := .plainRam (placeBytes pc bytes []) }

/-- The same at 0x0200, where most vectors stand. -/
def boot (bytes : List Byte) : State := bootAt 0x0200#16 bytes

/-- One byte of memory put in place. -/
def poke (a : Addr) (v : Byte) (s : State) : State :=
  { s with mem := { s.mem with cells := s.mem.cells.write a.toNat v } }

/-- The same state with another routing of the address space. -/
def routed (map : List Region) (s : State) : State := { s with mem := { s.mem with map := map } }

/-- The state after one step that is not refused. -/
def stepped (s : State) : Option State :=
  match step s with
  | .next t => some t
  | .fault _ => none
  | .refused _ => none

/-- The state after a dispatch word is dispatched (the dispatch-level vectors: `PC` is p). -/
def dispatched (dw : DispatchWord) (s : State) : Option State :=
  match dispatch dw s with
  | .next t => some t
  | .fault _ => none
  | .refused _ => none

/-- The byte at an address after. -/
def cell (t : State) (a : Addr) : Byte := t.mem.cells.read a.toNat

/-! ### Decoding: every constructor, by the dispatch word of the encoding tables (files 41 to 45) -/

/-- R120, encoding table. -/
theorem test_decode_lda :
    decode 0x000#9 = .ok .ldaImmediate ∧
    decode 0x001#9 = .ok .ldaAbsolute ∧
    decode 0x003#9 = .ok .ldaAccumulator ∧
    decode 0x004#9 = .ok .ldaZeroPage ∧
    decode 0x005#9 = .ok .ldaZeroPageIndexedX ∧
    decode 0x007#9 = .ok .ldaZeroPageIndirectIndexedX := by decide

/-- R123, encoding table. -/
theorem test_decode_sta :
    decode 0x011#9 = .ok .staAbsolute ∧
    decode 0x013#9 = .ok .staAccumulator ∧
    decode 0x014#9 = .ok .staZeroPage ∧
    decode 0x016#9 = .ok .staZeroPageIndexedY ∧
    decode 0x018#9 = .ok .staZeroPageIndirectIndexedY := by decide

/-- R121, encoding table. -/
theorem test_decode_ldx :
    decode 0x020#9 = .ok .ldxImmediate ∧
    decode 0x021#9 = .ok .ldxAbsolute ∧
    decode 0x023#9 = .ok .ldxAccumulator ∧
    decode 0x024#9 = .ok .ldxZeroPage ∧
    decode 0x025#9 = .ok .ldxZeroPageIndexedX ∧
    decode 0x027#9 = .ok .ldxZeroPageIndirectIndexedX := by decide

/-- R122, encoding table. -/
theorem test_decode_ldy :
    decode 0x030#9 = .ok .ldyImmediate ∧
    decode 0x031#9 = .ok .ldyAbsolute ∧
    decode 0x033#9 = .ok .ldyAccumulator ∧
    decode 0x034#9 = .ok .ldyZeroPage ∧
    decode 0x035#9 = .ok .ldyZeroPageIndexedX ∧
    decode 0x037#9 = .ok .ldyZeroPageIndirectIndexedX := by decide

/-- R124, encoding table. -/
theorem test_decode_txs :
    decode 0x040#9 = .ok (.txs 0x0#4) ∧
    decode 0x04F#9 = .ok (.txs 0xF#4) := by decide

/-- R130, encoding table. -/
theorem test_decode_and :
    decode 0x050#9 = .ok .andImmediate ∧
    decode 0x051#9 = .ok .andAbsolute ∧
    decode 0x053#9 = .ok .andAccumulator ∧
    decode 0x054#9 = .ok .andZeroPage ∧
    decode 0x055#9 = .ok .andZeroPageIndexedX ∧
    decode 0x057#9 = .ok .andZeroPageIndirectIndexedX := by decide

/-- R131, encoding table. -/
theorem test_decode_ora :
    decode 0x060#9 = .ok .oraImmediate ∧
    decode 0x061#9 = .ok .oraAbsolute ∧
    decode 0x063#9 = .ok .oraAccumulator ∧
    decode 0x064#9 = .ok .oraZeroPage ∧
    decode 0x065#9 = .ok .oraZeroPageIndexedX ∧
    decode 0x067#9 = .ok .oraZeroPageIndirectIndexedX := by decide

/-- R132, encoding table. -/
theorem test_decode_adc :
    decode 0x070#9 = .ok .adcImmediate ∧
    decode 0x071#9 = .ok .adcAbsolute ∧
    decode 0x073#9 = .ok .adcAccumulator ∧
    decode 0x074#9 = .ok .adcZeroPage ∧
    decode 0x075#9 = .ok .adcZeroPageIndexedX ∧
    decode 0x077#9 = .ok .adcZeroPageIndirectIndexedX := by decide

/-- R133, encoding table. -/
theorem test_decode_cmp :
    decode 0x080#9 = .ok .cmpImmediate ∧
    decode 0x081#9 = .ok .cmpAbsolute ∧
    decode 0x083#9 = .ok .cmpAccumulator ∧
    decode 0x084#9 = .ok .cmpZeroPage ∧
    decode 0x085#9 = .ok .cmpZeroPageIndexedX ∧
    decode 0x087#9 = .ok .cmpZeroPageIndirectIndexedX := by decide

/-- R134, encoding table. -/
theorem test_decode_cpy :
    decode 0x090#9 = .ok .cpyImmediate ∧
    decode 0x091#9 = .ok .cpyAbsolute ∧
    decode 0x093#9 = .ok .cpyAccumulator ∧
    decode 0x094#9 = .ok .cpyZeroPage ∧
    decode 0x095#9 = .ok .cpyZeroPageIndexedX ∧
    decode 0x097#9 = .ok .cpyZeroPageIndirectIndexedX := by decide

/-- R141, encoding table. -/
theorem test_decode_dec :
    decode 0x0A1#9 = .ok .decAbsolute ∧
    decode 0x0A3#9 = .ok .decAccumulator ∧
    decode 0x0A4#9 = .ok .decZeroPage := by decide

/-- R142, encoding table. -/
theorem test_decode_dey :
    decode 0x0B0#9 = .ok (.dey 0x0#4) ∧
    decode 0x0BF#9 = .ok (.dey 0xF#4) := by decide

/-- R140, encoding table. -/
theorem test_decode_lsr :
    decode 0x0C1#9 = .ok .lsrAbsolute ∧
    decode 0x0C3#9 = .ok .lsrAccumulator ∧
    decode 0x0C4#9 = .ok .lsrZeroPage := by decide

/-- R150, encoding table. -/
theorem test_decode_jmp :
    decode 0x0D1#9 = .ok .jmpAbsolute := by decide

/-- R151, encoding table. -/
theorem test_decode_jsr :
    decode 0x0E1#9 = .ok .jsrAbsolute := by decide

/-- R152, encoding table. -/
theorem test_decode_rts :
    decode 0x0F0#9 = .ok (.rts 0x0#4) ∧
    decode 0x0FF#9 = .ok (.rts 0xF#4) := by decide

/-- R153, encoding table. -/
theorem test_decode_beq :
    decode 0x102#9 = .ok .beqRelative := by decide

/-- R154, encoding table. -/
theorem test_decode_bne :
    decode 0x112#9 = .ok .bneRelative := by decide

/-- R160, encoding table. -/
theorem test_decode_sei :
    decode 0x120#9 = .ok (.sei 0x0#4) ∧
    decode 0x12F#9 = .ok (.sei 0xF#4) := by decide

/-- R161, encoding table. -/
theorem test_decode_cld :
    decode 0x130#9 = .ok (.cld 0x0#4) ∧
    decode 0x13F#9 = .ok (.cld 0xF#4) := by decide

/-- R162, encoding table. -/
theorem test_decode_clc :
    decode 0x140#9 = .ok (.clc 0x0#4) ∧
    decode 0x14F#9 = .ok (.clc 0xF#4) := by decide

/-- R163, encoding table. -/
theorem test_decode_sec :
    decode 0x150#9 = .ok (.sec 0x0#4) ∧
    decode 0x15F#9 = .ok (.sec 0xF#4) := by decide

/-- V15: words that are no instruction, each with its cause and the word. -/
theorem test_decode_faults :
    [0x002#9, 0x006#9, 0x028#9, 0x098#9, 0x010#9, 0x015#9, 0x0C5#9, 0x0C6#9, 0x0A8#9, 0x0D4#9, 0x0E3#9, 0x100#9, 0x111#9,
      0x009#9, 0x0DF#9].all (fun w => decode w == .error ⟨.illegalModeAccess, w⟩) = true ∧
    [0x160#9, 0x1FF#9].all (fun w => decode w == .error ⟨.unknownOpcode, w⟩) = true := by decide

/-- R171: the codes of the fault latch. -/
theorem test_fault_codes : faultCode none = 0 ∧ faultCode (some ⟨.unknownOpcode, 0x0EA#9⟩) = 1 ∧
    faultCode (some ⟨.illegalModeAccess, 0x002#9⟩) = 2 := by decide

/-- R82: the word of every row of the table decodes, and one step from reset runs it without a fault. -/
theorem test_rows_run_from_reset :
    opcodeTable.all (fun r => (decodeTableWord 16 r.matchWord.toNat).isSome &&
      (stepped (State.reset.withFetchWord 16 r.matchWord.toNat)).any stepResult) = true := by decide

/-! ### Well-formedness: each check refuses an ill-formed term -/

theorem test_admitted_refuses_sta_immediate : admitted .sta .immediate = false := by decide
theorem test_admitted_refuses_lda_relative : admitted .lda .relative = false := by decide
theorem test_admitted_refuses_beq_absolute : admitted .beq .absolute = false := by decide
theorem test_line_refuses_missing_operand : Line.wellFormed ⟨.ldaAbsolute, [0x34#8]⟩ = false := by decide
theorem test_line_refuses_extra_operand : Line.wellFormed ⟨.decAccumulator, [0x20#8]⟩ = false := by decide
theorem test_map_refuses_illegal_word : DecodeMap.wellFormed [(0x00#8, 0x002#9)] = false := by decide
theorem test_map_refuses_two_entries : DecodeMap.wellFormed [(0xA9#8, 0x000#9), (0xA9#8, 0x001#9)] = false := by decide
theorem test_memory_refuses_default_byte : Memory.wf [(0x10, 0x00#8)] = false := by decide
theorem test_memory_refuses_wrong_order : Memory.wf [(0x11, 0x01#8), (0x10, 0x01#8)] = false := by decide
theorem test_memory_refuses_no_address : Memory.wf [(0x10000, 0x01#8)] = false := by decide
theorem test_pending_refuses_repeat : pendingWf [.nmi, .nmi] = false := by decide

/-! ### Instructions -/

/-- V4: LDA ZeroPageIndexedX 0x80, X = 90. -/
theorem test_lda_zeroPageIndexedX :
    (stepped { poke 0x0110#16 0x7F#8 (boot [0xB5#8, 0x80#8]) with x := 0x90#8 }).map
      (fun t => (t.a, t.p, t.pc, t.bus)) =
      some (0x7F#8, 0x00#8, 0x0202#16, [.read 0x0200#16 0xB5#8, .read 0x0201#16 0x80#8, .read 0x0110#16 0x7F#8]) := by decide

/-- V2: LDA Absolute with operand bytes at FFFF and 0000. -/
theorem test_lda_absolute_wraps :
    (stepped (poke 0x1234#16 0x5A#8 (bootAt 0xFFFE#16 [0xAD#8, 0x34#8, 0x12#8]))).map
      (fun t => (t.a, t.p, t.pc, t.bus)) =
      some (0x5A#8, 0x00#8, 0x0001#16, [.read 0xFFFE#16 0xAD#8, .read 0xFFFF#16 0x34#8, .read 0x0000#16 0x12#8, .read 0x1234#16 0x5A#8]) := by decide

/-- V4, dispatch word 025: the index is X before the load. -/
theorem test_ldx_zeroPageIndexedX :
    (dispatched 0x025#9 { poke 0x0014#16 0x09#8 (boot [0x10#8]) with x := 0x04#8 }).map
      (fun t => (t.x, t.p, t.pc, t.bus)) =
      some (0x09#8, 0x00#8, 0x0201#16, [.read 0x0200#16 0x10#8, .read 0x0014#16 0x09#8]) := by decide

/-- V2 row 14, dispatch word 027: the pointer high byte is at 0100, FFFF + 5 wraps. -/
theorem test_ldx_indirect_pointer_FF :
    (dispatched 0x027#9 { poke 0x0100#16 0xFF#8 (poke 0x00FF#16 0xFF#8 (poke 0x0004#16 0x3C#8 (poke 0x0000#16 0xEE#8 (boot [0xFF#8])))) with x := 0x05#8 }).map
      (fun t => (t.x, t.pc, t.bus)) =
      some (0x3C#8, 0x0201#16, [.read 0x0200#16 0xFF#8, .read 0x00FF#16 0xFF#8, .read 0x0100#16 0xFF#8, .read 0x0004#16 0x3C#8]) := by decide

/-- V4: LDY Absolute 0x0200 loads its own opcode byte. -/
theorem test_ldy_absolute :
    (stepped (boot [0xAC#8, 0x00#8, 0x02#8])).map
      (fun t => (t.y, t.p, t.pc, t.bus)) =
      some (0xAC#8, 0x80#8, 0x0203#16, [.read 0x0200#16 0xAC#8, .read 0x0201#16 0x00#8, .read 0x0202#16 0x02#8, .read 0x0200#16 0xAC#8]) := by decide

/-- V4, dispatch word 033: LDY Accumulator with A = 00. -/
theorem test_ldy_accumulator :
    (dispatched 0x033#9 { boot [] with y := 0x55#8 }).map
      (fun t => (t.y, t.p, t.pc, t.bus)) =
      some (0x00#8, 0x02#8, 0x0200#16, []) := by decide

/-- V3 row 7, dispatch word 018: pointer FF, Y = 01, stores at 0000. -/
theorem test_sta_indirect_pointer_FF :
    (dispatched 0x018#9 { poke 0x0100#16 0xFF#8 (poke 0x00FF#16 0xFF#8 (boot [0xFF#8])) with a := 0xAA#8, y := 0x01#8, p := 0xC3#8 }).map
      (fun t => (cell t 0x0000#16, t.p, t.pc, t.bus)) =
      some (0xAA#8, 0xC3#8, 0x0201#16, [.read 0x0200#16 0xFF#8, .read 0x00FF#16 0xFF#8, .read 0x0100#16 0xFF#8, .write 0x0000#16 0xAA#8]) := by decide

/-- V5, dispatch word 016: STA ZeroPageIndexedY 0xF0, Y = 20, stores at 0110. -/
theorem test_sta_zeroPageIndexedY :
    (dispatched 0x016#9 { boot [0xF0#8] with a := 0x5A#8, y := 0x20#8 }).map
      (fun t => (cell t 0x0110#16, t.pc, t.bus)) =
      some (0x5A#8, 0x0201#16, [.read 0x0200#16 0xF0#8, .write 0x0110#16 0x5A#8]) := by decide

/-- V6: X = 80. -/
theorem test_txs :
    (stepped { boot [0x9A#8] with x := 0x80#8, sp := 0x55#8, p := 0x02#8 }).map
      (fun t => (t.sp, t.x, t.p, t.pc)) =
      some (0x80#8, 0x80#8, 0x80#8, 0x0201#16) := by decide

/-- V7: AND ZeroPage 0x40. -/
theorem test_and_zeroPage :
    (stepped { poke 0x0040#16 0xAA#8 (boot [0x25#8, 0x40#8]) with a := 0xCC#8 }).map
      (fun t => (t.a, t.p, t.pc)) =
      some (0x88#8, 0x80#8, 0x0202#16) := by decide

/-- V7: AND Immediate 0x0F, A = F0, C = V = 1. -/
theorem test_and_immediate_zero :
    (stepped { boot [0x29#8, 0x0F#8] with a := 0xF0#8, p := 0xC1#8 }).map
      (fun t => (t.a, t.p, t.pc)) =
      some (0x00#8, 0x43#8, 0x0202#16) := by decide

/-- V7: ORA Absolute 0x0300. -/
theorem test_ora_absolute :
    (stepped { poke 0x0300#16 0x80#8 (boot [0x0D#8, 0x00#8, 0x03#8]) with a := 0x01#8 }).map
      (fun t => (t.a, t.p, t.pc)) =
      some (0x81#8, 0x80#8, 0x0203#16) := by decide

/-- V8: 80 + 80, V starts clear. -/
theorem test_adc_minus256 :
    (stepped { boot [0x69#8, 0x80#8] with a := 0x80#8, p := 0x00#8 }).map
      (fun t => (t.a, t.p, t.pc)) =
      some (0x00#8, 0x42#8, 0x0202#16) := by decide

/-- V8: 64 + FF + 1 with D = 1: r = 100. -/
theorem test_adc_decimal_carry :
    (stepped { boot [0x69#8, 0xFF#8] with a := 0x64#8, p := 0x49#8 }).map
      (fun t => (t.a, t.p, t.pc)) =
      some (0x64#8, 0x09#8, 0x0202#16) := by decide

/-- V9: CMP Immediate 0x10, A = 90. -/
theorem test_cmp_128 :
    (stepped { boot [0xC9#8, 0x10#8] with a := 0x90#8, p := 0x40#8 }).map
      (fun t => (t.a, t.p, t.pc)) =
      some (0x90#8, 0xC1#8, 0x0202#16) := by decide

/-- V9: CMP Immediate 0xFF, A = 00. -/
theorem test_cmp_minus255 :
    (stepped { boot [0xC9#8, 0xFF#8] with a := 0x00#8, p := 0xC3#8 }).map
      (fun t => (t.a, t.p, t.pc)) =
      some (0x00#8, 0x40#8, 0x0202#16) := by decide

/-- V9: CPY Immediate 0x03, Y = 03, A = 33. -/
theorem test_cpy_compares_y :
    (stepped { boot [0xC0#8, 0x03#8] with y := 0x03#8, a := 0x33#8, p := 0x40#8 }).map
      (fun t => (t.y, t.p, t.pc)) =
      some (0x03#8, 0x43#8, 0x0202#16) := by decide

/-- V10: LSR ZeroPage 0x20 0x21. -/
theorem test_lsr_zeroPage :
    (stepped { poke 0x0021#16 0xEE#8 (poke 0x0020#16 0x03#8 (boot [0x46#8, 0x20#8, 0x21#8])) with p := 0xC0#8 }).map
      (fun t => (cell t 0x0020#16, cell t 0x0021#16, t.p, t.pc, t.bus)) =
      some (0x03#8, 0x01#8, 0x41#8, 0x0203#16, [.read 0x0200#16 0x46#8, .read 0x0201#16 0x20#8, .read 0x0020#16 0x03#8, .read 0x0202#16 0x21#8, .write 0x0021#16 0x01#8]) := by decide

/-- V10: LSR Absolute 0x0300 0x0301. -/
theorem test_lsr_absolute :
    (stepped (poke 0x0301#16 0xEE#8 (poke 0x0300#16 0x01#8 (boot [0x4E#8, 0x00#8, 0x03#8, 0x01#8, 0x03#8])))).map
      (fun t => (cell t 0x0300#16, cell t 0x0301#16, t.p, t.pc, t.bus)) =
      some (0x01#8, 0x00#8, 0x03#8, 0x0205#16, [.read 0x0200#16 0x4E#8, .read 0x0201#16 0x00#8, .read 0x0202#16 0x03#8, .read 0x0300#16 0x01#8, .read 0x0203#16 0x01#8, .read 0x0204#16 0x03#8, .write 0x0301#16 0x00#8]) := by decide

/-- V11: DEC ZeroPage 0x20 0x21. -/
theorem test_dec_zeroPage :
    (stepped { poke 0x0021#16 0x55#8 (boot [0xC6#8, 0x20#8, 0x21#8]) with p := 0x03#8 }).map
      (fun t => (cell t 0x0020#16, cell t 0x0021#16, t.p, t.pc, t.bus)) =
      some (0x00#8, 0xFF#8, 0x81#8, 0x0203#16, [.read 0x0200#16 0xC6#8, .read 0x0201#16 0x20#8, .read 0x0020#16 0x00#8, .read 0x0202#16 0x21#8, .write 0x0021#16 0xFF#8]) := by decide

/-- V11, dispatch word 0A3: A = 01. -/
theorem test_dec_accumulator :
    (dispatched 0x0A3#9 { boot [] with a := 0x01#8, p := 0x01#8 }).map
      (fun t => (t.a, t.p, t.pc, t.bus)) =
      some (0x00#8, 0x03#8, 0x0200#16, []) := by decide

/-- V11: Y = 00. -/
theorem test_dey_wraps :
    (stepped { boot [0x88#8] with y := 0x00#8, p := 0x03#8 }).map
      (fun t => (t.y, t.p, t.pc, t.bus)) =
      some (0xFF#8, 0x81#8, 0x0201#16, [.read 0x0200#16 0x88#8]) := by decide

/-- V12: JMP Absolute 0x1234. -/
theorem test_jmp :
    (stepped { bootAt 0x8000#16 [0x4C#8, 0x34#8, 0x12#8] with sp := 0xFD#8, p := 0xC3#8 }).map
      (fun t => (t.pc, t.sp, t.p, t.bus)) =
      some (0x1234#16, 0xFD#8, 0xC3#8, [.read 0x8000#16 0x4C#8, .read 0x8001#16 0x34#8, .read 0x8002#16 0x12#8]) := by decide

/-- V12: JSR Absolute 0x1234 with SP = 00. -/
theorem test_jsr_stack_wraps :
    (stepped { bootAt 0x8000#16 [0x20#8, 0x34#8, 0x12#8] with sp := 0x00#8 }).map
      (fun t => (t.pc, t.sp, t.bus)) =
      some (0x1234#16, 0xFE#8, [.read 0x8000#16 0x20#8, .read 0x8001#16 0x34#8, .read 0x8002#16 0x12#8, .write 0x0100#16 0x80#8, .write 0x01FF#16 0x02#8]) := by decide

/-- V12: JSR at FFFE pushes 0000. -/
theorem test_jsr_at_top :
    (stepped { bootAt 0xFFFE#16 [0x20#8, 0x34#8, 0x12#8] with sp := 0xFF#8 }).map
      (fun t => (t.pc, t.sp, t.bus)) =
      some (0x1234#16, 0xFD#8, [.read 0xFFFE#16 0x20#8, .read 0xFFFF#16 0x34#8, .read 0x0000#16 0x12#8, .write 0x01FF#16 0x00#8, .write 0x01FE#16 0x00#8]) := by decide

/-- V12: RTS with SP = FE. -/
theorem test_rts_stack_wraps :
    (stepped { poke 0x01FF#16 0x55#8 (poke 0x0100#16 0xFF#8 (bootAt 0x1234#16 [0x60#8])) with sp := 0xFE#8 }).map
      (fun t => (t.pc, t.sp, t.bus)) =
      some (0xFF56#16, 0x00#8, [.read 0x1234#16 0x60#8, .read 0x01FF#16 0x55#8, .read 0x0100#16 0xFF#8]) := by decide

/-- V12: RTS pulls FFFF. -/
theorem test_rts_pc_wraps :
    (stepped { poke 0x0102#16 0xFF#8 (poke 0x0101#16 0xFF#8 (bootAt 0x1234#16 [0x60#8])) with sp := 0x00#8 }).map
      (fun t => (t.pc, t.sp)) =
      some (0x0000#16, 0x02#8) := by decide

/-- V13: BEQ -128 at 000F, taken. -/
theorem test_beq_backward :
    (stepped { bootAt 0x000F#16 [0xF0#8, 0x80#8] with p := 0x02#8 }).map
      (fun t => (t.pc, t.p, t.bus)) =
      some (0xFF91#16, 0x02#8, [.read 0x000F#16 0xF0#8, .read 0x0010#16 0x80#8]) := by decide

/-- V13: BEQ +1 at FFFE, taken. -/
theorem test_beq_wraps :
    (stepped { bootAt 0xFFFE#16 [0xF0#8, 0x01#8] with p := 0x02#8 }).map
      (fun t => (t.pc)) =
      some (0x0001#16) := by decide

/-- V13: BNE -6 at 0208 with Z = 0. -/
theorem test_bne_taken :
    (stepped (bootAt 0x0208#16 [0xD0#8, 0xFA#8])).map
      (fun t => (t.pc)) =
      some (0x0204#16) := by decide

/-- V13: BNE -6 at 0208 with Z = 1. -/
theorem test_bne_not_taken :
    (stepped { bootAt 0x0208#16 [0xD0#8, 0xFA#8] with p := 0x02#8 }).map
      (fun t => (t.pc)) =
      some (0x020A#16) := by decide

/-- V14, first row. -/
theorem test_sei :
    (stepped { boot [0x78#8] with p := 0x8A#8 }).map
      (fun t => (t.p, t.pc)) =
      some (0x8E#8, 0x0201#16) := by decide

/-- V14, third row. -/
theorem test_cld :
    (stepped { boot [0xD8#8] with p := 0x8A#8 }).map
      (fun t => (t.p, t.pc)) =
      some (0x82#8, 0x0201#16) := by decide

/-- V14, sixth row. -/
theorem test_clc :
    (stepped { boot [0x18#8] with p := 0x45#8 }).map
      (fun t => (t.p, t.pc)) =
      some (0x44#8, 0x0201#16) := by decide

/-- V14 note, dispatch word 15F. -/
theorem test_sec_any_mode :
    (dispatched 0x15F#9 { boot [] with p := 0x8A#8 }).map
      (fun t => (t.p, t.pc, t.bus)) =
      some (0x8B#8, 0x0200#16, []) := by decide

/-- V15: the byte EA at 0200, and a second step. -/
theorem test_unknown_byte_halts :
    ((stepped (boot [0xEA#8])).map (fun t => (t.pc, t.fault, t.bus, stepResult t)) =
      some (0x0201#16, some ⟨.unknownOpcode, 0x0EA#9⟩, [.read 0x0200#16 0xEA#8], false)) ∧
    (stepped (boot [0xEA#8])).bind stepped = stepped (boot [0xEA#8]) := by decide

/-- V15: LSR ZeroPageIndexedX has a read entry but no write entry; nothing but the latch changes. -/
theorem test_illegal_mode_dispatch :
    dispatched 0x0C5#9 (boot [0x20#8]) = some { boot [0x20#8] with fault := some ⟨.illegalModeAccess, 0x0C5#9⟩ } := by
  decide

/-- V16: with NMI pending the run is refused before any transaction. -/
theorem test_pending_refuses :
    (match step (raiseInterrupt .nmi (boot [0xA9#8, 0x01#8])) with
      | .refused (.pendingInterrupt .nmi) => true
      | _ => false) = true := by decide

/-- V16 and P5: `Run(5)` from 0000 stops after two steps. -/
theorem test_run_stops_at_fault :
    (match runSteps 5 (bootAt 0x0000#16 [0xA9#8, 0x01#8, 0xEA#8]) with
      | .next (t, r) => (t.a, t.pc, t.fault, r) == (0x01#8, 0x0003#16, some ⟨.unknownOpcode, 0x0EA#9⟩, false)
      | _ => false) = true := by decide

/-- R40, log 2: a store through a mirror is read back at the address it stands for (STA Absolute 0x0905, A = 5A). -/
theorem test_store_through_mirror :
    (dispatched 0x011#9 (routed [Region.mirror 0x0800 0x1FFF 0x0000 0x0800] { boot [0x05#8, 0x09#8] with a := 0x5A#8 })).map
      (fun t => ((t.mem.read 0x0105#16).1, (t.mem.read 0x1105#16).1, t.bus.getLast?)) =
      some (0x5A#8, 0x5A#8, some (.write 0x0905#16 0x5A#8)) := by decide

/-- R40, log 2: a store where writes are discarded is a transaction and changes nothing (STA Absolute 0x8000). -/
theorem test_store_to_rom :
    (dispatched 0x011#9 (routed [Region.rom 0x8000 0xFFFF] { boot [0x00#8, 0x80#8] with a := 0x5A#8 })).map
      (fun t => ((t.mem.read 0x8000#16).1, t.bus.getLast?)) =
      some (0x00#8, some (.write 0x8000#16 0x5A#8)) := by decide

/-- R40, R48: a read of a device takes its answer and its effect (LDA Absolute 0x2002 with one device there). -/
theorem test_device_read_has_its_effect :
    (dispatched 0x001#9 (routed [⟨0x2000, 0x3FFF, .device 7⟩] (boot [0x02#8, 0x20#8]))).map (fun t => (t.a, t.mem.device)) =
      some (Config.deviceRead 7 [] 0x2002#16) := by
  have h : route [⟨0x2000, 0x3FFF, .device 7⟩] 0x2002 = .device 7 := by decide
  have h0 : route [⟨0x2000, 0x3FFF, .device 7⟩] 0x0200 = .cell 0x0200 true := by decide
  have h1 : route [⟨0x2000, 0x3FFF, .device 7⟩] 0x0201 = .cell 0x0201 true := by decide
  have b0 : Memory.read (placeBytes 0x0200#16 [0x02#8, 0x20#8] []) 0x0200 = 0x02#8 := by decide
  have b1 : Memory.read (placeBytes 0x0200#16 [0x02#8, 0x20#8] []) 0x0201 = 0x20#8 := by decide
  simp [dispatched, dispatch, show decode 0x001#9 = .ok .ldaAbsolute from rfl, exec, execLdaAbsolute, lda, readOp, absoluteEa,
    read16, memRead, MemAgent.read, routed, boot, bootAt, MemAgent.plainRam, h, h0, h1, b0, b1, advancePc, logTransaction,
    updateP, State.reset, State.launch, word16, State.setPc, State.setA, State.setP, State.setMem, State.setBus]

/-- R182, log 13: a dispatch word presented to a halted core does nothing. -/
theorem test_present_to_halted :
    (match presentWord 0x150#9 { boot [] with fault := some ⟨.unknownOpcode, 0x0EA#9⟩ } with
      | .next t => t == { boot [] with fault := some ⟨.unknownOpcode, 0x0EA#9⟩ }
      | _ => false) = true := by decide

/-- V1: the arithmetic helpers. -/
theorem test_helpers : toSigned 0x80#8 = -128 ∧ toSigned 0xFF#8 = -1 ∧ toSigned 0x7F#8 = 127 ∧
    wrap8 (-129) = 0x7F#8 ∧ wrap8 (-256) = 0x00#8 ∧ wrap8 160 = 0xA0#8 := by decide

/-- R80: `DEC Absolute 0x0300 0x0010` as bytes (V11), and back with a byte after it. -/
theorem test_line_dec_absolute :
    encodeLine decode6502 ⟨.decAbsolute, [0x00#8, 0x03#8, 0x10#8, 0x00#8]⟩ =
      some [0xCE#8, 0x00#8, 0x03#8, 0x10#8, 0x00#8] ∧
    decodeLine decode6502 [0xCE#8, 0x00#8, 0x03#8, 0x10#8, 0x00#8, 0x60#8] =
      .ok (⟨.decAbsolute, [0x00#8, 0x03#8, 0x10#8, 0x00#8]⟩, [0x60#8]) := by decide

/-- A line whose operand bytes are missing is refused by name. -/
theorem test_line_truncated : decodeLine decode6502 [0xCE#8, 0x00#8] = .error .truncated := by decide

/-! ### Witnesses: concrete terms that meet the hypotheses of each statement that has any -/

theorem witness_OnlyModes : (2#4 : BitVec 4) ∉ [0, 1, 3, 4, 5, 7] ∧ (9#4 : BitVec 4) ∉ [1, 3, 4, 6, 8] ∧
    (15#4 : BitVec 4) ∉ [1, 3, 4] ∧ (0#4 : BitVec 4) ∉ [1] ∧ (3#4 : BitVec 4) ∉ [2] := by decide
theorem witness_StackPrimitives : (boot [0x60#8]).mem.cells.wf = true := by decide
theorem witness_StatusOperationsTouchOneBit : (0 < 8 ∧ (0 : Nat) = Flag.c.bit) ∧ (7 < 8 ∧ (7 : Nat) = Flag.n.bit) ∧
    (5 < 8 ∧ ∀ f ∈ [Flag.c, .z, .i, .d, .v, .n], (5 : Nat) ≠ f.bit) := by decide
theorem witness_Dispatch_unknown : 21 < (0x160#9 : DispatchWord).toNat / 16 := by decide
theorem witness_Dispatch_modeless : Operation.sec.number.toNat = (0x15F#9 : DispatchWord).toNat / 16 ∧
    Operation.sec.ignoresMode = true := by decide
theorem witness_Dispatch_mode_number : Operation.lda.number.toNat = (0x009#9 : DispatchWord).toNat / 16 ∧
    Operation.lda.ignoresMode = false ∧ 8 < (0x009#9 : DispatchWord).toNat % 16 := by decide
theorem witness_Dispatch_not_admitted : Operation.bne.number.toNat = (0x111#9 : DispatchWord).toNat / 16 ∧
    Mode.absolute.number.toNat = (0x111#9 : DispatchWord).toNat % 16 ∧ Operation.bne.ignoresMode = false ∧
    admitted .bne .absolute = false := by decide
theorem witness_Dispatch_admitted : Operation.sta.number.toNat = (0x018#9 : DispatchWord).toNat / 16 ∧
    Mode.zeroPageIndirectIndexedY.number.toNat = (0x018#9 : DispatchWord).toNat % 16 ∧
    Operation.sta.ignoresMode = false ∧ admitted .sta .zeroPageIndirectIndexedY = true := by decide
theorem witness_OpcodeTableDecodes : decode 0x0C1#9 = .ok .lsrAbsolute ∧
    ∃ r ∈ opcodeTable, r.fits 0x0C1#9 = true := by decide
theorem witness_ModeFieldIgnored : Operation.sec ∈ [Operation.txs, .dey, .rts, .sei, .cld, .clc, .sec] := by decide
theorem witness_DefaultMap : decode6502.lookup 0x00#8 = none ∧ decode6502.lookup 0xFF#8 = none := by decide
theorem witness_DecodeAndEncodeAgree : decode 0x15F#9 = .ok (.sec 0xF#4) := by decide
theorem witness_LinesRoundTrip : Line.wellFormed ⟨.decAbsolute, [0x00#8, 0x03#8, 0x10#8, 0x00#8]⟩ = true ∧
    encodeLine decode6502 ⟨.decAbsolute, [0x00#8, 0x03#8, 0x10#8, 0x00#8]⟩ =
      some [0xCE#8, 0x00#8, 0x03#8, 0x10#8, 0x00#8] := by decide
theorem witness_StepRunsTheDecodedInstruction : Ready (boot [0x4C#8]) ∧
    decodeByte (boot [0x4C#8]).decodeMap (Claims.opcodeAt (boot [0x4C#8])) = .ok .jmpAbsolute := by decide
theorem witness_HaltedCoreDoesNothing :
    (raiseDecodeFault ⟨.unknownOpcode, 0x0EA#9⟩ (boot [])).fault = some ⟨.unknownOpcode, 0x0EA#9⟩ := by decide
theorem witness_PendingInterruptRefusesRun : (raiseInterrupt .nmi (boot [])).fault = none ∧
    (raiseInterrupt .nmi (boot [])).pending ≠ [] := by decide
theorem witness_UnknownByteFaultsAfterFetch : Ready (boot [0xEA#8]) ∧
    (boot [0xEA#8]).decodeMap.lookup (Claims.opcodeAt (boot [0xEA#8])) = none := by decide
theorem witness_DecodeFaultIsPrecise : decode 0x0C5#9 = .error ⟨.illegalModeAccess, 0x0C5#9⟩ ∧
    decodeByte [(0x33#8, 0x0C5#9)] (Claims.opcodeAt (boot [0x33#8])) = .error ⟨.illegalModeAccess, 0x0C5#9⟩ ∧
    DecodeMap.lookup [(0x33#8, 0x0C5#9)] (Claims.opcodeAt (boot [0x33#8])) = some 0x0C5#9 ∧
    Ready (boot [0xEA#8]) ∧ (stepped (boot [0xEA#8])).any (fun t => t.fault != none) = true := by decide
theorem witness_LegalMapNeverFaultsOnMode : (boot [0xEA#8]).decodeMap.wellFormed = true ∧ Ready (boot [0xEA#8]) ∧
    (stepped (boot [0xEA#8])).isSome = true ∧ (stepped (boot [0x88#8])).isSome = true := by decide
theorem witness_frames : (dispatched 0x011#9 (boot [0x34#8, 0x12#8])).isSome = true ∧
    (dispatched 0x0E1#9 (boot [0x34#8, 0x12#8])).isSome = true := by decide
theorem witness_tables_leave_something : Claims.writesA .ldxImmediate = false ∧ Claims.writesFlag .adc .d = false ∧
    0x1235 ∉ Claims.storedAt .staAbsolute (boot [0x34#8, 0x12#8]) ∧
    0x1234 ∈ Claims.storedAt .staAbsolute (boot [0x34#8, 0x12#8]) ∧
    0x1FF ∈ Claims.storedAt .jsrAbsolute (boot []) ∧ 0x200 ∉ Claims.storedAt .jsrAbsolute (boot []) := by decide
theorem witness_PlainRam : Memory.wf [(0x0000, 0x01#8), (0xFFFF, 0x01#8)] = true := by decide
theorem witness_InstructionAdvancesPc : Claims.writesPc Instr.lsrAbsolute.operation = false ∧
    (dispatched 0x0C1#9 (boot [])).isSome = true := by decide
theorem witness_StepBeginsWithOpcodeFetch : Ready (boot [0xA9#8]) ∧
    (stepped (boot [0xA9#8])).any (fun t => t.bus == [.read 0x0200#16 0xA9#8, .read 0x0201#16 0x00#8]) = true := by decide
theorem witness_OneWayFlags : (boot [0x69#8]).pending = [] ∧ (raiseInterrupt .nmi (boot [])).response = .refuse ∧
    Claims.fD (boot [0x69#8]) = false ∧
    Claims.fI { boot [0x69#8] with p := 0x04#8 } = true ∧
    (stepped { boot [0x69#8, 0x01#8] with a := 0x7F#8, p := 0x04#8 }).any (fun t => Claims.fV t) = true := by decide
theorem witness_StepKeepsInvariant : Inv (boot [0xA9#8, 0x01#8]) ∧ (stepped (boot [0xA9#8, 0x01#8])).isSome = true :=
  ⟨⟨by decide, by decide, by decide⟩, by decide⟩
theorem witness_launch_hypotheses : Memory.wf [(0x0200, 0xA9#8)] = true ∧ decode6502.wellFormed = true := by decide
/-- The stack page of an agent with a device elsewhere is plain RAM. -/
theorem witness_JsrThenRtsReturns : (boot [0x34#8, 0x12#8]).mem.cells.wf = true ∧
    (∀ n : Nat, 0x100 ≤ n → n ≤ 0x1FF → route [⟨0x2000, 0x3FFF, .device 0⟩] n = .cell n true) ∧
    (dispatched 0x0E1#9 (boot [0x34#8, 0x12#8])).isSome = true :=
  ⟨by decide, fun n _ h => if_neg (by simp only; omega), by decide⟩
theorem witness_SelfJumpRepeatsForEver : Ready (boot [0x4C#8, 0x00#8, 0x02#8]) ∧
    (∀ a : Addr, ((boot [0x4C#8, 0x00#8, 0x02#8]).mem.read a).2 = (boot [0x4C#8, 0x00#8, 0x02#8]).mem) ∧
    decodeByte decode6502 (Claims.opcodeAt (boot [0x4C#8, 0x00#8, 0x02#8])) = .ok .jmpAbsolute ∧
    Claims.addr (Claims.le16 ((boot [0x4C#8, 0x00#8, 0x02#8]).mem.read 0x0201#16).1
      ((boot [0x4C#8, 0x00#8, 0x02#8]).mem.read 0x0202#16).1) = 0x0200#16 :=
  ⟨by decide, fun _ => rfl, by decide, by decide⟩
theorem witness_RunStopsAtFirstFalse : (stepped (boot [0xEA#8])).isSome = true := by decide
theorem witness_PlacedInstructionRunsNext : (boot []).mem.cells.wf = true ∧
    decodeTableWord 16 0x027 = some .ldxZeroPageIndirectIndexedX ∧ decodeTableWord 16 0x15F = some (.sec 0xF#4) ∧
    decodeTableWord 16 0x000 = some .ldaImmediate := by decide
/-- STA, LSR and DEC Absolute and JSR, each storing to the address of the next opcode. -/
theorem witness_StoreSeenByNextFetch :
    (boot [0x02#8, 0x02#8]).mem.map = [] ∧ (boot [0x02#8, 0x02#8]).mem.cells.wf = true ∧ Ready (boot [0x02#8, 0x02#8]) ∧
    (dispatched 0x011#9 (boot [0x02#8, 0x02#8])).any (fun t => t.pc == 0x0202#16 && (stepped t).isSome) = true ∧
    0x0202 ∈ Claims.storedAt .staAbsolute (boot [0x02#8, 0x02#8]) ∧
    (dispatched 0x0C1#9 (boot [0x00#8, 0x03#8, 0x04#8, 0x02#8])).any (fun t => t.pc == 0x0204#16 && (stepped t).isSome) =
      true ∧ 0x0204 ∈ Claims.storedAt .lsrAbsolute (boot [0x00#8, 0x03#8, 0x04#8, 0x02#8]) ∧
    0x0204 ∈ Claims.storedAt .decAbsolute (boot [0x00#8, 0x03#8, 0x04#8, 0x02#8]) ∧
    (dispatched 0x0E1#9 (boot [0xFF#8, 0x01#8])).any (fun t => t.pc == 0x01FF#16 && (stepped t).isSome) = true ∧
    0x01FF ∈ Claims.storedAt .jsrAbsolute (boot [0xFF#8, 0x01#8]) := by decide
/-- A second kind set pending beside NMI, in a canonical set. -/
theorem witness_PendingUnseenByHandlers : pendingWf (raiseInterrupt (.other 3) (raiseInterrupt .nmi (boot []))).pending = true ∧
    (raiseInterrupt (.other 3) (raiseInterrupt .nmi (boot []))).pending = [.nmi, .other 3] := by decide
/-- The three ends: by budget, by a decode fault, and at a JMP to its own address. -/
theorem witness_RunEnds :
    (match runUntil (fun _ => false) 1 (boot [0xA9#8, 0x01#8]) with | .next (_, e) => e == .budget | _ => false) = true ∧
    (match runUntil atUnmappedByte 1 (boot [0xA9#8, 0x01#8]) with | .next (_, e) => e == .predicate | _ => false) = true ∧
    (match runUntil (fun _ => false) 5 (boot [0xA9#8, 0x01#8]) with | .next (_, e) => e == .decodeFault | _ => false) =
      true ∧ atSelfJump (boot [0x4C#8, 0x00#8, 0x02#8]) = true ∧ Ready (boot [0xEA#8]) ∧
    atUnmappedByte (boot [0xEA#8]) = true := by decide
/-- Premises about an agent of several regions: a mirror, a region that discards writes, plain RAM. -/
theorem witness_agent_regions :
    route [Region.mirror 0x0800 0x1FFF 0x0000 0x0800] 0x0905 = .cell 0x0105 true ∧
    route [Region.rom 0x8000 0xFFFF] 0x8000 = .cell 0x8000 false ∧ route [] 0xFFFF = .cell 0xFFFF true := by decide
/-- A state with another interrupt response connected and a kind pending. -/
theorem witness_external_response : (connectResponse (.external 1) (raiseInterrupt .nmi (boot []))).response = .external 1 ∧
    (connectResponse (.external 1) (raiseInterrupt .nmi (boot []))).pending ≠ [] := by decide

end Sys2Proof.Tests
end

section
/-! The invariant (10_state.md, 20_memory.md): reset and every launch meet it (R30, R71), and every step keeps it
(R29, R31, R56, R70). A handler keeps it because all it does at the memory boundary is to have transactions served. -/

namespace Sys2Proof.Machine

variable {s t : State}

/-- What the core keeps besides the invariant's data: the agent's routing and the parameters of the run (R31). -/
structure SameParameters (s t : State) : Prop where
  map : t.mem.map = s.mem.map
  decodeMap : t.decodeMap = s.decodeMap
  response : t.response = s.response

theorem Issues.sameParameters {ts : List Transaction} (h : Issues ts s t) : SameParameters s t :=
  ⟨(MemAgent.serve_spec h.mem).1, h.decodeMap, h.response⟩

/-- Serving transactions keeps the stored bytes canonical, and nothing else of the invariant's data moves. -/
theorem Issues.inv {ts : List Transaction} (h : Issues ts s t) (hs : Inv s) : Inv t where
  mem := (MemAgent.serve_spec h.mem).2.1 hs.mem
  pending := h.pending ▸ hs.pending
  decodeMap := h.decodeMap ▸ hs.decodeMap

/-- The opcode fetch is one read, which changes no stored byte (R78). -/
theorem inv_fetched (hs : Inv s) : Inv (Claims.fetched s) where
  mem := by simpa [Claims.fetched] using hs.mem
  pending := hs.pending
  decodeMap := hs.decodeMap

theorem sameParameters_fetched (s : State) : SameParameters s (Claims.fetched s) :=
  ⟨MemAgent.read_map _ _, rfl, rfl⟩

theorem inv_takeResponse (hs : Inv s) (r : State) : Inv (takeResponse s r) where
  mem := (takeResponse_spec s r).2.2.2
  pending := pendingWf_foldr_insertKind r.pending
  decodeMap := hs.decodeMap

/-- The invariant does not look at the fault latch. -/
theorem inv_latched (hs : Inv s) (f : DecodeFault) : Inv { s with fault := some f } :=
  ⟨hs.mem, hs.pending, hs.decodeMap⟩

theorem step_keeps_inv (hs : Inv s) (h : step s = .next t) : Inv t ∧ SameParameters s t := by
  rcases step_cases h with ⟨-, rfl⟩ | ⟨-, -, -, r, rfl⟩ | ⟨-, f, -, rfl⟩ | ⟨-, i, -, hexec⟩
  · exact ⟨hs, rfl, rfl, rfl⟩
  · exact ⟨inv_takeResponse hs r, rfl, rfl, rfl⟩
  · exact ⟨inv_latched (inv_fetched hs) f, MemAgent.read_map _ _, rfl, rfl⟩
  · obtain ⟨u, ts, hu, hi⟩ := exec_issues i (Claims.fetched s)
    cases hu.symm.trans hexec
    have hf := sameParameters_fetched s
    have hp := hi.sameParameters
    exact ⟨hi.inv (inv_fetched hs), hp.map.trans hf.map, hp.decodeMap.trans hf.decodeMap,
      hp.response.trans hf.response⟩

/-- Settles O49, by the cases of a step. -/
theorem stepKeepsInvariant : Obligations.StepKeepsInvariant := by
  intro s t hs h
  obtain ⟨hinv, hmap, hdec, hresp⟩ := step_keeps_inv hs h
  exact ⟨hinv, hmap, hdec, hresp⟩

theorem wellFormed_decode6502 : decode6502.wellFormed = true := by decide

/-- A launch has nothing pending, so only the connected agent and map matter. -/
theorem inv_launch (init : Init) {g : MemAgent} {map : DecodeMap} (r : IntResponse) (hg : g.cells.wf = true)
    (hmap : map.wellFormed = true) : Inv (State.launch init g map r) :=
  ⟨hg, rfl, hmap⟩

/-- Settles O50: reset is a launch with empty memory and `DECODE_6502`. -/
theorem resetMeetsInvariant : Obligations.ResetMeetsInvariant :=
  ⟨inv_launch .zero .refuse Memory.wf_nil wellFormed_decode6502,
    fun init _ _ r hg hmap => inv_launch init r hg hmap⟩

end Sys2Proof.Machine
end

section
/-! What an instruction leaves is what its operation's handler leaves, in whichever of its modes (R66, R72): 22 cases
for the 70 instructions. -/

namespace Sys2Proof.Machine

section
variable (m : ReadMode) (w : WriteMode) (r : RmwMode) (b : BitVec 4) (s : State)

@[simp] theorem exec_lda : exec (.lda m) s = .next (lda m s) := by cases m <;> rfl
@[simp] theorem exec_sta : exec (.sta w) s = .next (sta w s) := by cases w <;> rfl
@[simp] theorem exec_ldx : exec (.ldx m) s = .next (ldx m s) := by cases m <;> rfl
@[simp] theorem exec_ldy : exec (.ldy m) s = .next (ldy m s) := by cases m <;> rfl
@[simp] theorem exec_and : exec (.and m) s = .next (andA m s) := by cases m <;> rfl
@[simp] theorem exec_ora : exec (.ora m) s = .next (ora m s) := by cases m <;> rfl
@[simp] theorem exec_adc : exec (.adc m) s = .next (adc m s) := by cases m <;> rfl
@[simp] theorem exec_cmp : exec (.cmp m) s = .next (cmp m s) := by cases m <;> rfl
@[simp] theorem exec_cpy : exec (.cpy m) s = .next (cpy m s) := by cases m <;> rfl
@[simp] theorem exec_dec : exec (.dec r) s = .next (dec r s) := by cases r <;> rfl
@[simp] theorem exec_lsr : exec (.lsr r) s = .next (lsr r s) := by cases r <;> rfl
@[simp] theorem exec_txs : exec (.txs b) s = .next (txs s) := rfl
@[simp] theorem exec_dey : exec (.dey b) s = .next (dey s) := rfl
@[simp] theorem exec_jmp : exec .jmpAbsolute s = .next (jmp s) := rfl
@[simp] theorem exec_jsr : exec .jsrAbsolute s = .next (jsr s) := rfl
@[simp] theorem exec_rts : exec (.rts b) s = .next (rts s) := rfl
@[simp] theorem exec_beq : exec .beqRelative s = .next (beq s) := rfl
@[simp] theorem exec_bne : exec .bneRelative s = .next (bne s) := rfl
@[simp] theorem exec_sei : exec (.sei b) s = .next (sei s) := rfl
@[simp] theorem exec_cld : exec (.cld b) s = .next (cld s) := rfl
@[simp] theorem exec_clc : exec (.clc b) s = .next (clc s) := rfl
@[simp] theorem exec_sec : exec (.sec b) s = .next (sec s) := rfl

@[simp] theorem operation_lda : (Instr.lda m).operation = .lda := by cases m <;> rfl
@[simp] theorem operation_sta : (Instr.sta w).operation = .sta := by cases w <;> rfl
@[simp] theorem operation_ldx : (Instr.ldx m).operation = .ldx := by cases m <;> rfl
@[simp] theorem operation_ldy : (Instr.ldy m).operation = .ldy := by cases m <;> rfl
@[simp] theorem operation_and : (Instr.and m).operation = .and := by cases m <;> rfl
@[simp] theorem operation_ora : (Instr.ora m).operation = .ora := by cases m <;> rfl
@[simp] theorem operation_adc : (Instr.adc m).operation = .adc := by cases m <;> rfl
@[simp] theorem operation_cmp : (Instr.cmp m).operation = .cmp := by cases m <;> rfl
@[simp] theorem operation_cpy : (Instr.cpy m).operation = .cpy := by cases m <;> rfl
@[simp] theorem operation_dec : (Instr.dec r).operation = .dec := by cases r <;> rfl
@[simp] theorem operation_lsr : (Instr.lsr r).operation = .lsr := by cases r <;> rfl
@[simp] theorem operation_txs : (Instr.txs b).operation = .txs := rfl
@[simp] theorem operation_dey : (Instr.dey b).operation = .dey := rfl
@[simp] theorem operation_jmp : Instr.jmpAbsolute.operation = .jmp := rfl
@[simp] theorem operation_jsr : Instr.jsrAbsolute.operation = .jsr := rfl
@[simp] theorem operation_rts : (Instr.rts b).operation = .rts := rfl
@[simp] theorem operation_beq : Instr.beqRelative.operation = .beq := rfl
@[simp] theorem operation_bne : Instr.bneRelative.operation = .bne := rfl
@[simp] theorem operation_sei : (Instr.sei b).operation = .sei := rfl
@[simp] theorem operation_cld : (Instr.cld b).operation = .cld := rfl
@[simp] theorem operation_clc : (Instr.clc b).operation = .clc := rfl
@[simp] theorem operation_sec : (Instr.sec b).operation = .sec := rfl
end

/-- The cases of an instruction that answers a next state, one for each operation. -/
theorem exec_cases {s : State} {motive : (i : Instr) → (t : State) → exec i s = .next t → Prop}
    (lda : ∀ m, motive (.lda m) (lda m s) (exec_lda m s)) (sta : ∀ m, motive (.sta m) (sta m s) (exec_sta m s))
    (ldx : ∀ m, motive (.ldx m) (ldx m s) (exec_ldx m s)) (ldy : ∀ m, motive (.ldy m) (ldy m s) (exec_ldy m s))
    (txs : ∀ b, motive (.txs b) (txs s) rfl) (and : ∀ m, motive (.and m) (andA m s) (exec_and m s))
    (ora : ∀ m, motive (.ora m) (ora m s) (exec_ora m s)) (adc : ∀ m, motive (.adc m) (adc m s) (exec_adc m s))
    (cmp : ∀ m, motive (.cmp m) (cmp m s) (exec_cmp m s)) (cpy : ∀ m, motive (.cpy m) (cpy m s) (exec_cpy m s))
    (dec : ∀ m, motive (.dec m) (dec m s) (exec_dec m s)) (dey : ∀ b, motive (.dey b) (dey s) rfl)
    (lsr : ∀ m, motive (.lsr m) (lsr m s) (exec_lsr m s)) (jmp : motive .jmpAbsolute (jmp s) rfl)
    (jsr : motive .jsrAbsolute (jsr s) rfl) (rts : ∀ b, motive (.rts b) (rts s) rfl)
    (beq : motive .beqRelative (beq s) rfl) (bne : motive .bneRelative (bne s) rfl)
    (sei : ∀ b, motive (.sei b) (sei s) rfl) (cld : ∀ b, motive (.cld b) (cld s) rfl)
    (clc : ∀ b, motive (.clc b) (clc s) rfl) (sec : ∀ b, motive (.sec b) (sec s) rfl)
    (i : Instr) (t : State) (h : exec i s = .next t) : motive i t h := by
  cases i <;> cases h
  exacts [lda .immediate, lda .absolute, lda .accumulator, lda .zeroPage, lda .zeroPageIndexedX,
    lda .zeroPageIndirectIndexedX, sta .absolute, sta .accumulator, sta .zeroPage, sta .zeroPageIndexedY,
    sta .zeroPageIndirectIndexedY, ldx .immediate, ldx .absolute, ldx .accumulator, ldx .zeroPage,
    ldx .zeroPageIndexedX, ldx .zeroPageIndirectIndexedX, ldy .immediate, ldy .absolute, ldy .accumulator,
    ldy .zeroPage, ldy .zeroPageIndexedX, ldy .zeroPageIndirectIndexedX, txs _, and .immediate, and .absolute,
    and .accumulator, and .zeroPage, and .zeroPageIndexedX, and .zeroPageIndirectIndexedX, ora .immediate,
    ora .absolute, ora .accumulator, ora .zeroPage, ora .zeroPageIndexedX, ora .zeroPageIndirectIndexedX,
    adc .immediate, adc .absolute, adc .accumulator, adc .zeroPage, adc .zeroPageIndexedX,
    adc .zeroPageIndirectIndexedX, cmp .immediate, cmp .absolute, cmp .accumulator, cmp .zeroPage,
    cmp .zeroPageIndexedX, cmp .zeroPageIndirectIndexedX, cpy .immediate, cpy .absolute, cpy .accumulator,
    cpy .zeroPage, cpy .zeroPageIndexedX, cpy .zeroPageIndirectIndexedX, dec .absolute, dec .accumulator,
    dec .zeroPage, dey _, lsr .absolute, lsr .accumulator, lsr .zeroPage, jmp, jsr, rts _, beq, bne, sei _, cld _,
    clc _, sec _]

end Sys2Proof.Machine
end

section
/-! Each register is written by the instructions of the register table only (10_state.md, R10 to R14). -/

namespace Sys2Proof.Machine

open Claims

section
variable (m : ReadMode) (w : WriteMode) (r : RmwMode) (f : Byte → Byte) (v : Byte) (s : State)

@[simp] theorem updateP_a : (updateP f s).a = s.a := rfl
@[simp] theorem updateP_x : (updateP f s).x = s.x := rfl
@[simp] theorem updateP_y : (updateP f s).y = s.y := rfl
@[simp] theorem updateP_sp : (updateP f s).sp = s.sp := rfl
@[simp] theorem updateP_p : (updateP f s).p = f s.p := rfl

@[simp] theorem readOp_a : (readOp m s).2.a = s.a := by rw [readOp_frame]
@[simp] theorem readOp_x : (readOp m s).2.x = s.x := by rw [readOp_frame]
@[simp] theorem readOp_y : (readOp m s).2.y = s.y := by rw [readOp_frame]
@[simp] theorem readOp_sp : (readOp m s).2.sp = s.sp := by rw [readOp_frame]
@[simp] theorem readOp_p : (readOp m s).2.p = s.p := by rw [readOp_frame]

@[simp] theorem writeOp_a : (writeOp w v s).a = writtenA w v s := by cases w <;> rfl
@[simp] theorem writeOp_x : (writeOp w v s).x = s.x := by rw [writeOp_frame]
@[simp] theorem writeOp_y : (writeOp w v s).y = s.y := by rw [writeOp_frame]
@[simp] theorem writeOp_sp : (writeOp w v s).sp = s.sp := by rw [writeOp_frame]
@[simp] theorem writeOp_p : (writeOp w v s).p = s.p := by rw [writeOp_frame]

@[simp] theorem rmwWrite_eq_accumulator : rmwWrite r = .accumulator ↔ r = .accumulator := by cases r <;> decide

@[simp] theorem writesA_sta : writesA (.sta w) = decide (w = .accumulator) := by cases w <;> rfl
@[simp] theorem writesA_dec : writesA (.dec r) = decide (r = .accumulator) := by cases r <;> rfl
@[simp] theorem writesA_lsr : writesA (.lsr r) = decide (r = .accumulator) := by cases r <;> rfl

end

/-- Settles O42, by operation: a read resolution writes no register but `PC`, a write resolution none but `PC` and, in
mode Accumulator, `A`; beyond that a handler writes its destination and `P`. -/
theorem registersWrittenByTable : Obligations.RegistersWrittenByTable := by
  intro i s t h
  induction i, t, h using exec_cases with
  | lda m => simp [lda, writesA]
  | ldx m => simp [ldx]
  | ldy m => simp [ldy]
  | and m => simp [andA, writesA]
  | ora m => simp [ora, writesA]
  | adc m => simp [adc, writesA]
  | cmp m => simp [cmp]
  | cpy m => simp [cpy]
  | sta m => simp +contextual [sta, writtenA]
  | dec m => simp +contextual [dec, writtenA]
  | lsr m => simp +contextual [lsr, writtenA]
  | txs => simp [txs]
  | dey => simp [dey]
  | sei | cld | clc | sec => exact ⟨fun _ => rfl, fun _ => rfl, fun _ _ => rfl, fun _ _ _ => rfl⟩
  | jmp => simp [jmp, addrOf_spec]
  | jsr => simp [jsr, push_spec, addrOf_spec, advancePc]
  | rts => simp [rts, pull_spec, setPcl, setPch, advancePc]
  | beq => simp [beq, branchIf_spec]
  | bne => simp [bne, branchIf_spec]

end Sys2Proof.Machine
end

section
/-! Each flag is written by the instructions of the flag table only, and the unnamed bits of `P` by none (10_state.md,
R19 to R25): a handler's status register is a chain of `AssignFlag`s (R90), each of a flag the table names. -/

namespace Sys2Proof.Machine

open Claims

/-- `P` after the operation `op` against `P` before, by the flag table of 10_state.md. -/
structure FlagsByTable (op : Operation) (p q : Byte) : Prop where
  flag : ∀ f, writesFlag op f = false → getFlag f q = getFlag f p
  bit4 : q.getLsbD 4 = p.getLsbD 4
  bit5 : q.getLsbD 5 = p.getLsbD 5

/-- `AssignFlag` writes the flag it names and leaves the other five (R90). -/
@[simp] theorem getFlag_assignFlag (f g : Flag) (b : Bool) (p : Byte) :
    getFlag f (assignFlag g b p) = if f = g then b else getFlag f p := by
  rw [eq_statusByte p]; cases f <;> cases g <;> simp

@[simp] theorem bit4_assignFlag (f : Flag) (b : Bool) (p : Byte) : (assignFlag f b p).getLsbD 4 = p.getLsbD 4 := by
  rw [eq_statusByte p]; cases f <;> simp

@[simp] theorem bit5_assignFlag (f : Flag) (b : Bool) (p : Byte) : (assignFlag f b p).getLsbD 5 = p.getLsbD 5 := by
  rw [eq_statusByte p]; cases f <;> simp

section
variable {op : Operation} {p q : Byte}

theorem FlagsByTable.refl (op : Operation) (p : Byte) : FlagsByTable op p p := ⟨fun _ _ => rfl, rfl, rfl⟩

/-- One more `AssignFlag`, of a flag the table names. -/
theorem FlagsByTable.assign (h : FlagsByTable op p q) {f : Flag} (hf : writesFlag op f = true) (b : Bool) :
    FlagsByTable op p (assignFlag f b q) where
  flag g hg := by
    have hne : g ≠ f := by rintro rfl; simp [hf] at hg
    simp [hne, h.flag g hg]
  bit4 := (bit4_assignFlag f b q).trans h.bit4
  bit5 := (bit5_assignFlag f b q).trans h.bit5

theorem flagsByTable_respondToLoad (hz : writesFlag op .z = true) (hn : writesFlag op .n = true) (v p : Byte) :
    FlagsByTable op p (respondToLoad v p) :=
  ((FlagsByTable.refl op p).assign hz _).assign hn _

theorem flagsByTable_compareFlags (hc : writesFlag op .c = true) (hz : writesFlag op .z = true)
    (hn : writesFlag op .n = true) (d : Int) (p : Byte) : FlagsByTable op p (compareFlags d p) :=
  (((FlagsByTable.refl op p).assign hn _).assign hz _).assign hc _

theorem flagsByTable_adcFlags (d : Int) (p : Byte) : FlagsByTable .adc p (adcFlags d p) :=
  ((((FlagsByTable.refl .adc p).assign rfl _).assign rfl _).assign rfl _).assign rfl _

theorem flagsByTable_lsrFlags (v p : Byte) : FlagsByTable .lsr p (lsrFlags v p) :=
  (((FlagsByTable.refl .lsr p).assign rfl _).assign rfl false).assign rfl _
end

/-- What an instruction leaves in `P` follows the flag table. -/
theorem exec_flagsByTable {i : Instr} {s t : State} (h : exec i s = .next t) : FlagsByTable i.operation s.p t.p := by
  induction i, t, h using exec_cases with
  | lda m => simpa [lda] using flagsByTable_respondToLoad rfl rfl _ _
  | ldx m => simpa [ldx] using flagsByTable_respondToLoad rfl rfl _ _
  | ldy m => simpa [ldy] using flagsByTable_respondToLoad rfl rfl _ _
  | and m => simpa [andA] using flagsByTable_respondToLoad rfl rfl _ _
  | ora m => simpa [ora] using flagsByTable_respondToLoad rfl rfl _ _
  | dec m => simpa [dec] using flagsByTable_respondToLoad rfl rfl _ _
  | txs | dey => exact flagsByTable_respondToLoad rfl rfl _ _
  | adc m => simpa [adc] using flagsByTable_adcFlags _ _
  | cmp m => simpa [cmp] using flagsByTable_compareFlags rfl rfl rfl _ _
  | cpy m => simpa [cpy] using flagsByTable_compareFlags rfl rfl rfl _ _
  | lsr m => simpa [lsr] using flagsByTable_lsrFlags _ _
  | sta m => simpa [sta] using FlagsByTable.refl _ _
  | beq => simpa [beq, branchIf_spec] using FlagsByTable.refl _ _
  | bne => simpa [bne, branchIf_spec] using FlagsByTable.refl _ _
  | jmp | jsr | rts => exact .refl _ _
  | sei => exact (FlagsByTable.refl .sei s.p).assign (f := .i) rfl true
  | cld => exact (FlagsByTable.refl .cld s.p).assign (f := .d) rfl false
  | clc => exact (FlagsByTable.refl .clc s.p).assign (f := .c) rfl false
  | sec => exact (FlagsByTable.refl .sec s.p).assign (f := .c) rfl true

/-- Settles O43: the chain of `AssignFlag`s of each operation names flags of its row only. -/
theorem flagsWrittenByTable : Obligations.FlagsWrittenByTable := by
  intro i s t h
  obtain ⟨hflag, hbit4, hbit5⟩ := exec_flagsByTable h
  exact ⟨hflag, hbit4, hbit5⟩

end Sys2Proof.Machine
end

section
/-! INTERRUPT_DISABLE is read by no handler (R21, R179): every operation commutes with a change of `P.I`, SEI up to the
value it sets (R160). -/

namespace Sys2Proof.Machine

section
variable (m : ReadMode) (w : WriteMode) (cond b : Bool) (v p q : Byte) (s : State)

/-! A change of `P` commutes with every update of another register and with every resolution. -/

@[simp] theorem State.setP_setP : (s.setP p).setP q = s.setP q := rfl
@[simp] theorem State.setP_setA : (s.setP p).setA v = (s.setA v).setP p := rfl
@[simp] theorem State.setP_setX : (s.setP p).setX v = (s.setX v).setP p := rfl
@[simp] theorem State.setP_setY : (s.setP p).setY v = (s.setY v).setP p := rfl
@[simp] theorem State.setP_setSp : (s.setP p).setSp v = (s.setSp v).setP p := rfl

@[simp] theorem readOp_setP : readOp m (s.setP p) = ((readOp m s).1, (readOp m s).2.setP p) := by cases m <;> rfl
@[simp] theorem writeOp_setP : writeOp w v (s.setP p) = (writeOp w v s).setP p := by cases w <;> rfl
@[simp] theorem branchIf_setP : branchIf cond (s.setP p) = (branchIf cond s).setP p := by cases cond <;> rfl
@[simp] theorem branchIf_p : (branchIf cond s).p = s.p := by rw [branchIf_spec]

/-! A change of `P.I` commutes with every flag computation. -/

theorem assignFlag_same (f : Flag) (c : Bool) : assignFlag f b (assignFlag f c p) = assignFlag f b p := by
  rw [eq_statusByte p]; cases f <;> simp

theorem assignFlag_assignI {f : Flag} (hf : f ≠ .i) (c : Bool) :
    assignFlag f c (assignFlag .i b p) = assignFlag .i b (assignFlag f c p) := by
  rw [eq_statusByte p]; cases f <;> simp at hf ⊢

theorem respondToLoad_assignI : respondToLoad v (assignFlag .i b p) = assignFlag .i b (respondToLoad v p) := by
  simp [respondToLoad, assignFlag_assignI]

theorem compareFlags_assignI (d : Int) : compareFlags d (assignFlag .i b p) = assignFlag .i b (compareFlags d p) := by
  simp [compareFlags, assignFlag_assignI]

theorem adcSum_assignI (a : Byte) : adcSum a v (assignFlag .i b p) = adcSum a v p := by
  simp [adcSum]

theorem adcFlags_assignI (d : Int) : adcFlags d (assignFlag .i b p) = assignFlag .i b (adcFlags d p) := by
  simp [adcFlags, assignFlag_assignI]

theorem lsrFlags_assignI : lsrFlags v (assignFlag .i b p) = assignFlag .i b (lsrFlags v p) := by
  simp [lsrFlags, clearFlag_eq_assign, assignFlag_assignI]

end

/-- Settles O59, by operation: no resolution looks at `P`, and each flag computation commutes with a change of `P.I`. -/
theorem interruptDisableUnread : Obligations.InterruptDisableUnread := by
  intro i b s t h
  change exec i (s.setP (assignFlag .i b s.p)) =
    .next (t.setP (assignFlag .i (if i.operation = .sei then true else b) t.p))
  induction i, t, h using exec_cases with
  | lda m => simp [lda, updateP, respondToLoad_assignI]
  | ldx m => simp [ldx, updateP, respondToLoad_assignI]
  | ldy m => simp [ldy, updateP, respondToLoad_assignI]
  | and m => simp [andA, updateP, respondToLoad_assignI]
  | ora m => simp [ora, updateP, respondToLoad_assignI]
  | dec m => simp [dec, updateP, respondToLoad_assignI]
  | adc m => simp [adc, updateP, adcSum_assignI, adcFlags_assignI]
  | cmp m => simp [cmp, updateP, compareFlags_assignI]
  | cpy m => simp [cpy, updateP, compareFlags_assignI]
  | lsr m => simp [lsr, updateP, lsrFlags_assignI]
  | sta m => simp [sta]
  | txs n => simp [txs, updateP, respondToLoad_assignI]
  | dey n => simp [dey, updateP, respondToLoad_assignI]
  | jmp | jsr | rts => rfl
  | beq => simp [beq]
  | bne => simp [bne]
  | sei n => simp [sei, updateP, setFlag_eq_assign, assignFlag_same]
  | cld n => simp [cld, updateP, clearFlag_eq_assign, assignFlag_assignI]
  | clc n => simp [clc, updateP, clearFlag_eq_assign, assignFlag_assignI]
  | sec n => simp [sec, updateP, setFlag_eq_assign, assignFlag_assignI]

end Sys2Proof.Machine
end

section
/-! Stored bytes (20_memory.md, R51, R56): what a read answers after a write, in plain RAM and wherever an agent routes
an access to a stored byte. -/

namespace Sys2Proof.Machine

/-- With no region connected every address is routed to its own byte (R56). -/
@[simp] theorem route_nil (n : Nat) : route [] n = .cell n true := rfl

/-- In a canonical memory a read gives the latest write to its address, and any other byte as it was (R51). -/
theorem Memory.read_write {m : Memory} (h : m.wf = true) (a b : Nat) (v : Byte) :
    (m.write a v).read b = if b = a then v else m.read b := by
  split
  · subst_vars; exact Memory.read_write_same h _ v
  · exact Memory.read_write_other ‹_› v m

section
variable {g : MemAgent} {a b : Addr} {k n : Nat} {w : Bool}

/-- A region that is not writable discards writes. -/
theorem MemAgent.write_discarded (h : route g.map a.toNat = .cell n false) (v : Byte) : g.write a v = g := by
  simp [MemAgent.write, h]

/-- A stored byte is seen at every address that is routed to it, and at no other (R40, R51). -/
theorem MemAgent.read_write_cell (hg : g.cells.wf = true) (ha : route g.map a.toNat = .cell n true)
    (hb : route g.map b.toNat = .cell k w) (v : Byte) :
    ((g.write a v).read b).1 = if k = n then v else (g.read b).1 := by
  have hb' : route (g.write a v).map b.toNat = .cell k w := by rwa [g.write_map]
  rw [MemAgent.read_cell _ b hb', MemAgent.read_cell g b hb, MemAgent.write_cell g a v ha]
  exact Memory.read_write hg n k v

/-- The plain-RAM agent answers the stored byte and is not changed by a read (R56). -/
theorem MemAgent.read_plainRam (h : g.map = []) (a : Addr) : g.read a = (g.cells.read a.toNat, g) :=
  g.read_cell a (w := true) (by rw [h, route_nil])

end

/-- Settles O45: plain RAM is the agent in which each address is routed to its own byte. -/
theorem plainRamReadsLatestWrite : Obligations.PlainRamReadsLatestWrite := by
  refine ⟨fun m a b v h => Memory.read_write h a b v, fun _ => rfl, fun g a b v hmap hg => ?_, fun g a n hg => ?_⟩
  · have hroute (c : Addr) : route g.map c.toNat = .cell c.toNat true := by rw [hmap, route_nil]
    exact ⟨by rw [MemAgent.read_plainRam hmap],
      by simpa [BitVec.toNat_inj] using MemAgent.read_write_cell hg (hroute a) (hroute b) v⟩
  · exact ⟨fun _ h => g.read_cell a h, MemAgent.write_discarded, fun h v _ _ _ hb => MemAgent.read_write_cell hg h hb v⟩

end Sys2Proof.Machine
end

section
/-! What a step of a ready core puts on the memory boundary (R41, R42, R48, R78): the opcode fetch, then the
transactions of the handler. The stored bytes change by the writes among them only. -/

namespace Sys2Proof.Machine

open Claims

variable {s t : State}

/-- From `s` to `t` the agent served the transactions `ts`: a stored byte to which no write among them is routed is as
before (R40, R42). -/
theorem byteAt_served {ts : List Transaction} (h : s.mem.serve ts = some t.mem) {n : Nat}
    (hn : ∀ a v, .write a v ∈ ts → ∀ w, route s.mem.map a.toNat ≠ .cell n w) : byteAt t n = byteAt s n :=
  (MemAgent.serve_spec h).2.2 n hn

/-- In plain RAM a write is routed to the byte at its own address only. -/
theorem plainRam_unrouted {g : MemAgent} (hg : g.map = []) {ts : List Transaction} {n : Nat}
    (hn : ∀ a v, .write a v ∈ ts → a.toNat ≠ n) :
    ∀ a v, .write a v ∈ ts → ∀ w, route g.map a.toNat ≠ .cell n w := by
  intro a v hmem w hroute
  rw [hg, route_nil] at hroute
  cases hroute
  exact hn a v hmem rfl

/-- The opcode fetch is served as the first transaction of a step. -/
theorem fetched_serve (s : State) : s.mem.serve [.read s.pc (opcodeAt s)] = some (fetched s).mem := by
  simp [opcodeAt, fetched]

/-- A ready core's step fetches the opcode and then has the handler's transactions served; where the byte stands for
no instruction there are none (R78, R172). -/
theorem step_serves (hr : Ready s) (h : step s = .next t) :
    ∃ ts, t.bus = .read s.pc (opcodeAt s) :: ts ∧ s.mem.serve t.bus = some t.mem := by
  rw [step_of_ready s hr, fetchAndDispatch_eq] at h
  cases hd : decodeByte s.decodeMap (s.mem.read s.pc).1 with
  | error f =>
    rw [hd] at h
    cases h
    exact ⟨[], rfl, fetched_serve s⟩
  | ok i =>
    rw [hd] at h
    obtain ⟨u, ts, hu, hi⟩ := exec_issues i (fetched s)
    cases hu.symm.trans h
    refine ⟨ts, hi.bus, ?_⟩
    rw [hi.bus, MemAgent.serve_append]
    exact (congrArg (·.bind (·.serve ts)) (fetched_serve s)).trans hi.mem

/-- Settles O47: the fetch is the first transaction served, and serving moves the bytes written only. -/
theorem stepBeginsWithOpcodeFetch : Obligations.StepBeginsWithOpcodeFetch := by
  intro s t hr h
  obtain ⟨rest, hbus, hserve⟩ := step_serves hr h
  refine ⟨⟨rest, hbus⟩, hserve, fun hmap a ha => ?_, fun n hn => byteAt_served hserve hn⟩
  refine byteAt_served hserve (plainRam_unrouted hmap fun b v hb hab => ha v ?_)
  rwa [← BitVec.eq_of_toNat_eq hab]

end Sys2Proof.Machine
end

section
/-! The addresses of the write modes in plain RAM (R106 to R110), as the arithmetic on numbers of `writeEa`. -/

namespace Sys2Proof.Machine

open Claims

theorem addr_toNat (a : Addr) : addr a.toNat = a := by simp [addr]

/-- Addresses add modulo 2^16 (R43). -/
theorem addr_add (m n : Nat) : addr (m + n) = addr m + addr n := BitVec.ofNat_add m n

theorem zext16_eq_addr (v : Byte) : zext16 v = addr v.toNat := by
  rw [← zext16_toNat, addr_toNat]

theorem word16_eq_addr (lo hi : Byte) : word16 lo hi = addr (le16 lo hi) := by
  rw [le16, ← word16_toNat, addr_toNat]

/-- The address of operand byte number `k`. -/
theorem addr_pc_add (s : State) (k : Nat) : addr (s.pc.toNat + k) = s.pc + addr k := by
  rw [addr_add, addr_toNat]

section
variable {s : State} (h : s.mem.map = [])
include h

/-- In plain RAM a read at `PC + k` is a read of operand byte number `k`. -/
theorem read_operand (k : Nat) : s.mem.read (s.pc + addr k) = (operand s k, s.mem) := by
  rw [MemAgent.read_plainRam h, ← addr_pc_add]; rfl

theorem read_operand_zero : s.mem.read s.pc = (operand s 0, s.mem) := by
  simpa [addr] using read_operand h 0

theorem absoluteEa_plainRam : (absoluteEa s).1 = addr (le16 (operand s 0) (operand s 1)) := by
  have h1 : s.mem.read (s.pc + 1) = (operand s 1, s.mem) := read_operand h 1
  simp only [absoluteEa_spec, read_operand_zero h, h1, word16_eq_addr]

theorem zeroPageEa_plainRam : (zeroPageEa s).1 = addr (operand s 0).toNat := by
  simp [zeroPageEa_spec, read_operand_zero h, zext16_eq_addr]

theorem zeroPageIndexedEa_plainRam (index : Byte) :
    (zeroPageIndexedEa index s).1 = addr ((operand s 0).toNat + index.toNat) := by
  simp [zeroPageIndexedEa_spec, read_operand_zero h, zext16_eq_addr, addr_add]

/-- A zero-page pointer's high byte is read at `z + 1`, which may be 0x100 but wraps nowhere (R110). -/
theorem indirectIndexedEa_plainRam (index : Byte) : (indirectIndexedEa index s).1 =
    addr (le16 (byteAt s (operand s 0).toNat) (byteAt s ((operand s 0).toNat + 1)) + index.toNat) := by
  have hz (z : Byte) : (zext16 z + 1).toNat = z.toNat + 1 := by
    have := z.isLt
    simp [BitVec.toNat_add, zext16_toNat]; omega
  simp only [indirectIndexedEa_spec, read_operand_zero h, MemAgent.read_plainRam h, zext16_toNat, hz]
  rw [word16_eq_addr, zext16_eq_addr, ← addr_add]
  rfl

end

/-- A resolution that begins `k` bytes further on takes the operand bytes from number `k` on (R63). -/
theorem writeEa_advanced {s t : State} {k : Nat} (hpc : t.pc = s.pc + addr k)
    (hbyte : ∀ n, byteAt t n = byteAt s n) (hy : t.y = s.y) (m : WriteMode) : writeEa m 0 t = writeEa m k s := by
  have hop (j : Nat) : operand t j = operand s (k + j) := by
    rw [operand, operand, hbyte, addr_pc_add, addr_pc_add, hpc, addr_add, BitVec.add_assoc]
  cases m <;> simp [writeEa, hop, hbyte, hy]

end Sys2Proof.Machine
end

section
/-! What an instruction writes in plain RAM (R58, R123, R140, R141, R151): each operation is described by the writes it
issues, whatever it reads between them, and these are at the addresses of `storedAt`, in order. -/

namespace Sys2Proof.Machine

open Claims

/-- The address and byte of a write. -/
def Transaction.written : Transaction → Option (Addr × Byte)
  | .read _ _ => none
  | .write a v => some (a, v)

theorem Transaction.written_eq_some {t : Transaction} {a : Addr} {v : Byte} :
    t.written = some (a, v) ↔ t = .write a v := by
  cases t <;> simp [Transaction.written]

/-- The writes among some transactions, oldest first. -/
def writesIn (ts : List Transaction) : List (Addr × Byte) := ts.filterMap Transaction.written

theorem mem_writesIn {ts : List Transaction} {a : Addr} {v : Byte} : (a, v) ∈ writesIn ts ↔ .write a v ∈ ts := by
  simp [writesIn, Transaction.written_eq_some]

/-- From `s` to `t` the core issued the writes `ws`, with any reads between them, and nothing else at the boundary. -/
def Stores (ws : List (Addr × Byte)) (s t : State) : Prop := ∃ ts, Issues ts s t ∧ writesIn ts = ws

section
variable {s t u : State} {ws vs : List (Addr × Byte)}

theorem Stores.refl (s : State) : Stores [] s s := ⟨[], .refl s, rfl⟩

theorem Stores.trans (h : Stores ws s t) (k : Stores vs t u) : Stores (ws ++ vs) s u := by
  obtain ⟨ts, hts, rfl⟩ := h
  obtain ⟨us, hus, rfl⟩ := k
  exact ⟨ts ++ us, hts.trans hus, List.filterMap_append⟩

/-- An update of registers writes nothing. -/
theorem Stores.regs (h : Stores ws s t) (hm : u.mem = t.mem := by rfl) (hb : u.bus = t.bus := by rfl)
    (hf : u.fault = t.fault := by rfl) (hp : u.pending = t.pending := by rfl)
    (hd : u.decodeMap = t.decodeMap := by rfl) (hr : u.response = t.response := by rfl) : Stores ws s u := by
  obtain ⟨ts, hts, hws⟩ := h
  exact ⟨ts, hts.regs hm hb hf hp hd hr, hws⟩

theorem Stores.map (h : Stores ws s t) : t.mem.map = s.mem.map := by
  obtain ⟨ts, hts, -⟩ := h
  exact hts.sameParameters.map

/-- Where nothing is written every stored byte is as before. -/
theorem Stores.byteAt (h : Stores [] s t) (n : Nat) : byteAt t n = byteAt s n := by
  obtain ⟨ts, hts, hws⟩ := h
  refine byteAt_served hts.mem fun a v hmem => ?_
  rw [← mem_writesIn, hws] at hmem
  cases hmem

end

section
variable (s : State)

theorem memRead_stores (a : Addr) : Stores [] s (memRead a s).2 := ⟨_, memRead_issues s a, rfl⟩

theorem memWrite_stores (a : Addr) (v : Byte) : Stores [(a, v)] s (memWrite a v s) := ⟨_, memWrite_issues s a v, rfl⟩

/-- After some reads, a write at an address in its closed form. -/
theorem Stores.write {s t : State} (h : Stores [] s t) {a b : Addr} (ha : a = b) (v : Byte) :
    Stores [(b, v)] s (memWrite a v t) :=
  ha ▸ h.trans (memWrite_stores t a v)

theorem fetchByte_stores : Stores [] s (fetchByte s).2 := ⟨_, fetchByte_issues s, rfl⟩

theorem push_stores (v : Byte) : Stores [(stackBase + zext16 s.sp, v)] s (push v s) := ⟨_, push_issues s v, rfl⟩

theorem pull_stores : Stores [] s (pull s).2 := ⟨_, pull_issues s, rfl⟩

theorem addrOf_stores : Stores [] s (addrOf s).2 := (memRead_stores s s.pc).trans (memRead_stores _ (s.pc + 1))

theorem absoluteEa_stores : Stores [] s (absoluteEa s).2 := (addrOf_stores s).regs

theorem indirectIndexedEa_stores (index : Byte) : Stores [] s (indirectIndexedEa index s).2 :=
  ((fetchByte_stores s).trans (memRead_stores _ _)).trans (memRead_stores _ _)

/-- A read resolution writes nothing. -/
theorem readOp_stores (m : ReadMode) : Stores [] s (readOp m s).2 := by
  cases m with
  | immediate => exact fetchByte_stores s
  | accumulator => exact .refl s
  | absolute => exact (absoluteEa_stores s).trans (memRead_stores _ _)
  | zeroPage | zeroPageIndexedX => exact (fetchByte_stores s).trans (memRead_stores _ _)
  | zeroPageIndirectIndexedX => exact (indirectIndexedEa_stores s s.x).trans (memRead_stores _ _)

theorem readOp_pc (m : ReadMode) : (readOp m s).2.pc = s.pc + readWidth m := by
  cases m with
  | accumulator => exact (BitVec.add_zero s.pc).symm
  | immediate | absolute | zeroPage | zeroPageIndexedX | zeroPageIndirectIndexedX => rfl

theorem branchIf_stores (cond : Bool) : Stores [] s (branchIf cond s) := by
  rw [branchIf_spec]; exact (fetchByte_stores s).regs

theorem rts_stores : Stores [] s (rts s) :=
  have h : Stores [] s (setPcl (pull s).1 (pull s).2) := (pull_stores s).regs
  (h.trans (pull_stores _)).regs

/-- JSR writes the two stack slots, the upper one first (R151). -/
theorem jsr_stores : ∃ hi lo, Stores [(stackBase + zext16 s.sp, hi), (stackBase + zext16 (s.sp - 1), lo)] s (jsr s) :=
  let q := advancePc 1 (addrOf s).2
  let r := push (highByte q.pc) q
  have hq : Stores [] s q := (addrOf_stores s).regs
  have hr : Stores ([] ++ [(stackBase + zext16 s.sp, highByte q.pc)]) s r := hq.trans (push_stores q _)
  ⟨highByte q.pc, lowByte r.pc, (hr.trans (push_stores r (lowByte r.pc))).regs⟩

end

/-- In plain RAM, what a write resolution of `v` writes whose first operand byte is number `k`. -/
def destination (m : WriteMode) (k : Nat) (v : Byte) (s : State) : List (Addr × Byte) :=
  (writeEa m k s).toList.map fun n => (addr n, v)

theorem mem_destination {m : WriteMode} {k : Nat} {v : Byte} {s : State} {w : Addr × Byte}
    (h : w ∈ destination m k v s) : w.2 = v := by
  obtain ⟨n, -, rfl⟩ := List.mem_map.mp h; rfl

section
variable {s : State} (hmap : s.mem.map = [])
include hmap

theorem writeOp_stores (m : WriteMode) (v : Byte) : Stores (destination m 0 v s) s (writeOp m v s) := by
  cases m with
  | accumulator => exact (Stores.refl s).regs
  | absolute => exact (absoluteEa_stores s).write (absoluteEa_plainRam hmap) v
  | zeroPage => exact (fetchByte_stores s).write (zeroPageEa_plainRam hmap) v
  | zeroPageIndexedY => exact (fetchByte_stores s).write (zeroPageIndexedEa_plainRam hmap s.y) v
  | zeroPageIndirectIndexedY => exact (indirectIndexedEa_stores s s.y).write (indirectIndexedEa_plainRam hmap s.y) v

/-- LSR and DEC write where their second field of operand bytes says (R63, R140, R141). -/
theorem rmw_stores (r : RmwMode) (v : Byte) :
    Stores (destination (rmwWrite r) (readWidth (rmwRead r)).toNat v s) s
      (writeOp (rmwWrite r) v (readOp (rmwRead r) s).2) := by
  have hread := readOp_stores s (rmwRead r)
  have hwrite := writeOp_stores (hread.map.trans hmap) (rmwWrite r) v
  have hpc : (readOp (rmwRead r) s).2.pc = s.pc + addr (readWidth (rmwRead r)).toNat := by rw [readOp_pc, addr_toNat]
  rw [destination, writeEa_advanced hpc hread.byteAt (readOp_y _ s)] at hwrite
  exact hread.trans hwrite

end

section
variable (r : RmwMode) (w : WriteMode) (v : Byte) (s : State)

theorem storedAt_sta : (destination w 0 v s).map (·.1.toNat) = storedAt (.sta w) s := by
  cases w <;> rfl

theorem storedAt_lsr :
    (destination (rmwWrite r) (readWidth (rmwRead r)).toNat v s).map (·.1.toNat) = storedAt (.lsr r) s := by
  cases r <;> rfl

theorem storedAt_dec :
    (destination (rmwWrite r) (readWidth (rmwRead r)).toNat v s).map (·.1.toNat) = storedAt (.dec r) s := by
  cases r <;> rfl

/-- No two of the addresses an instruction stores to are the same: only JSR has two, and its stack slots differ. -/
theorem storedAt_nodup (i : Instr) : (storedAt i s).Nodup := by
  have honly (o : Option Nat) : (o.toList.map fun n => (addr n).toNat).Nodup := by cases o <;> simp
  cases hop : i.operation with
  | sta | lsr | dec => simp only [storedAt, hop]; exact honly _
  | jsr =>
    have hslots : 0x100 + s.sp.toNat ≠ 0x100 + (s.sp - 1).toNat := by bv_omega
    simp only [storedAt, hop]
    simpa using hslots
  | _ => simp [storedAt, hop]

end

/-- In plain RAM an instruction writes at the addresses of `storedAt`, in order, and at no other (R58); STA writes `A`
(R123). -/
theorem exec_stores {i : Instr} {s t : State} (hmap : s.mem.map = []) (h : exec i s = .next t) :
    ∃ ws, Stores ws s t ∧ ws.map (·.1.toNat) = storedAt i s ∧ (i.operation = .sta → ∀ w ∈ ws, w.2 = s.a) := by
  induction i, t, h using exec_cases with
  | lda m | ldx m | ldy m | and m | ora m | adc m | cmp m | cpy m =>
    exact ⟨[], (readOp_stores s m).regs, by simp [storedAt], by simp⟩
  | txs | dey | sei | cld | clc | sec => exact ⟨[], (Stores.refl s).regs, rfl, by simp⟩
  | jmp => exact ⟨[], (addrOf_stores s).regs, rfl, by simp⟩
  | rts => exact ⟨[], rts_stores s, rfl, by simp⟩
  | beq | bne => exact ⟨[], branchIf_stores s _, rfl, by simp⟩
  | sta m =>
    exact ⟨destination m 0 s.a s, writeOp_stores hmap m s.a, storedAt_sta m s.a s, fun _ _ => mem_destination⟩
  | lsr r =>
    simp only [lsr, updateP, writeOp_setP]
    exact ⟨_, (rmw_stores hmap r _).regs, storedAt_lsr r _ s, by simp⟩
  | dec r => exact ⟨_, (rmw_stores hmap r _).regs, storedAt_dec r _ s, by simp⟩
  | jsr =>
    obtain ⟨hi, lo, hw⟩ := jsr_stores s
    exact ⟨_, hw, by simp only [List.map_cons, List.map_nil, stackSlot_toNat, storedAt, operation_jsr], by simp⟩

/-- Settles O44: plain RAM is written at the addresses of `storedAt` only, and any agent's stored bytes by the writes
among the transactions it served only. -/
theorem memoryWrittenOnlyWhereStored : Obligations.MemoryWrittenOnlyWhereStored := by
  refine ⟨fun i s t ⟨hmap, hwf⟩ h => ?_, fun i s t h => ?_⟩
  · obtain ⟨ws, ⟨ts, hi, rfl⟩, haddr, -⟩ := exec_stores hmap h
    obtain ⟨hmap', hwf', -⟩ := MemAgent.serve_spec hi.mem
    refine ⟨⟨hmap'.trans hmap, hwf' hwf⟩, fun n hn => byteAt_served hi.mem (plainRam_unrouted hmap ?_)⟩
    rintro a v hmem rfl
    exact hn (haddr ▸ List.mem_map_of_mem (mem_writesIn.mpr hmem))
  · obtain ⟨u, ts, hu, hi⟩ := exec_issues i s
    cases hu.symm.trans h
    exact ⟨ts, hi.bus, hi.mem, fun n => byteAt_served hi.mem⟩

end Sys2Proof.Machine
end

section
/-! A store to the address of the next opcode is what the next step fetches (R54, R203): there is no pipeline and no
prefetch, so the last byte written there is the one read. -/

namespace Sys2Proof.Machine

open Claims

/-- In plain RAM, after serving transactions that write at an address, and there one byte only, the address holds it. -/
theorem MemAgent.serve_read_written {g g' : MemAgent} {ts : List Transaction} {a : Addr} {v : Byte}
    (hmap : g.map = []) (hwf : g.cells.wf = true) (hs : g.serve ts = some g') (hmem : .write a v ∈ ts)
    (hone : ∀ w, .write a w ∈ ts → w = v) : g'.cells.read a.toNat = v := by
  induction ts generalizing g with
  | nil => cases hmem
  | cons t ts ih =>
    have hone' : ∀ w, .write a w ∈ ts → w = v := fun w hw => hone w (List.mem_cons_of_mem _ hw)
    cases t with
    | read b x =>
      rw [MemAgent.serve_read] at hs
      split at hs
      · exact ih (by simpa) (by simpa) hs (by simpa using hmem) hone'
      · cases hs
    | write b x =>
      rw [MemAgent.serve_write] at hs
      by_cases hlater : .write a v ∈ ts
      · exact ih (by simpa) (g.wf_write b x hwf) hs hlater hone'
      · obtain ⟨rfl, rfl⟩ : a = b ∧ v = x := by simpa [hlater] using hmem
        have hlast : ∀ c w, .write c w ∈ ts → c.toNat ≠ a.toNat := by
          intro c w hw hc
          obtain rfl := BitVec.eq_of_toNat_eq hc
          exact hlater (hone' w hw ▸ hw)
        rw [(MemAgent.serve_spec hs).2.2 _ (plainRam_unrouted (by simpa) hlast),
          MemAgent.write_cell g a v (n := a.toNat) (by simp [hmap])]
        exact Memory.read_write_same hwf _ v

/-- In plain RAM the opcode byte is the one stored at `PC`. -/
theorem opcodeAt_plainRam {s : State} (h : s.mem.map = []) : opcodeAt s = byteAt s s.pc.toNat := by
  rw [opcodeAt, MemAgent.read_plainRam h, byteAt]

/-- Settles O57: the instruction writes each of its addresses once, so the byte it wrote at `PC` is there for the
fetch. -/
theorem storeSeenByNextFetch : Obligations.StoreSeenByNextFetch := by
  intro i s t u ⟨hmap, hwf⟩ ⟨hfault, hpending⟩ h hstored hu
  obtain ⟨ws, ⟨ts, hi, rfl⟩, haddr, hsta⟩ := exec_stores hmap h
  obtain ⟨⟨a, v⟩, hw, ha⟩ := List.mem_map.mp (haddr ▸ hstored)
  obtain rfl : a = t.pc := BitVec.eq_of_toNat_eq ha
  have hone (w : Byte) (hw' : .write t.pc w ∈ ts) : w = v := by
    have hpair : (t.pc, w) = (t.pc, v) :=
      List.inj_on_of_nodup_map (haddr ▸ storedAt_nodup s i) (mem_writesIn.mpr hw') hw rfl
    exact (Prod.mk.inj hpair).2
  have hbyte : byteAt t t.pc.toNat = v := MemAgent.serve_read_written hmap hwf hi.mem (mem_writesIn.mp hw) hone
  obtain ⟨rest, hbus, -⟩ := step_serves ⟨hi.fault.trans hfault, hi.pending.trans hpending⟩ hu
  refine ⟨ts, v, hi.bus, mem_writesIn.mp hw, hone, fun hop => hsta hop _ hw, ?_⟩
  rw [hbus, List.head?_cons, opcodeAt_plainRam (hi.sameParameters.map.trans hmap), hbyte]

end Sys2Proof.Machine
end

section
/-! The decoder is the inverse of the encoder (R64 to R67): a dispatch word is its two number fields, and the table of
instructions has, for an operation and a mode number, the instruction of that operation with those mode bits. -/

namespace Sys2Proof

section
variable (dw : DispatchWord) (n : BitVec 5) (b : BitVec 4)

theorem opField_toNat : (opField dw).toNat = dw.toNat / 16 := by
  have := dw.isLt
  simp [opField, BitVec.extractLsb'_toNat, Nat.shiftRight_eq_div_pow]; omega

theorem modeField_toNat : (modeField dw).toNat = dw.toNat % 16 := by
  simp [modeField, BitVec.extractLsb'_toNat]

theorem append_toNat : (n ++ b).toNat = 16 * n.toNat + b.toNat := by
  rw [BitVec.toNat_append, ← Nat.shiftLeft_add_eq_or_of_lt b.isLt, Nat.shiftLeft_eq, Nat.mul_comm]

/-- A dispatch word is its two fields. -/
theorem append_eq_iff_fields : n ++ b = dw ↔ n = opField dw ∧ b = modeField dw := by
  have := b.isLt
  simp only [← BitVec.toNat_inj, append_toNat, opField_toNat, modeField_toNat]
  omega

end

theorem Operation.ofNumber_eq_some {n : BitVec 5} {op : Operation} : Operation.ofNumber n = some op ↔ op.number = n := by
  cases op <;> revert n <;> decide

theorem Operation.ofNumber_eq_none {n : BitVec 5} : Operation.ofNumber n = none ↔ 21 < n.toNat := by
  revert n; decide

theorem Mode.ofNumber_eq_some {b : BitVec 4} {m : Mode} : Mode.ofNumber b = some m ↔ m.number = b := by
  cases m <;> revert b <;> decide

theorem Mode.ofNumber_eq_none {b : BitVec 4} : Mode.ofNumber b = none ↔ 8 < b.toNat := by
  revert b; decide

/-- A mode number goes with an operation: the operation ignores it, or it is the number of a mode admitted with it. -/
def Operation.admits (op : Operation) (b : BitVec 4) : Bool := op.ignoresMode || (Mode.ofNumber b).any (admitted op)

/-- An operation has an instruction for the mode numbers that go with it, and for no other. -/
theorem instrOf_isSome (op : Operation) : ∀ b, (instrOf op b).isSome = op.admits b := by
  cases op <;> decide

/-- What the instruction of an operation and a mode number is. -/
theorem instrOf_spec (op : Operation) : ∀ b, ∀ i ∈ instrOf op b,
    i.operation = op ∧ i.modeBits = b ∧ i.mode = if op.ignoresMode then none else Mode.ofNumber b := by
  cases op <;> decide

section
variable {dw : DispatchWord} {op : Operation} {i : Instr}

theorem decode_unknown (h : Operation.ofNumber (opField dw) = none) : decode dw = .error ⟨.unknownOpcode, dw⟩ := by
  simp [decode, h]

theorem decode_illegal (h : op.number = opField dw) (hi : instrOf op (modeField dw) = none) :
    decode dw = .error ⟨.illegalModeAccess, dw⟩ := by
  simp [decode, Operation.ofNumber_eq_some.mpr h, hi]

theorem decode_instrOf (h : op.number = opField dw) (hi : instrOf op (modeField dw) = some i) : decode dw = .ok i := by
  simp [decode, Operation.ofNumber_eq_some.mpr h, hi]

/-- Conversely, only an operation's instruction is decoded. -/
theorem instrOf_of_decode (h : decode dw = .ok i) :
    ∃ op : Operation, op.number = opField dw ∧ instrOf op (modeField dw) = some i := by
  cases hop : Operation.ofNumber (opField dw) with
  | none => rw [decode_unknown hop] at h; cases h
  | some op =>
    have hn := Operation.ofNumber_eq_some.mp hop
    refine ⟨op, hn, ?_⟩
    cases hi : instrOf op (modeField dw) with
    | none => rw [decode_illegal hn hi] at h; cases h
    | some j => rw [decode_instrOf hn hi] at h; cases h; rfl

theorem encode_of_decode (h : decode dw = .ok i) : encode i = dw := by
  obtain ⟨op, hn, hi⟩ := instrOf_of_decode h
  obtain ⟨hop, hbits, -⟩ := instrOf_spec op _ i hi
  rw [encode, append_eq_iff_fields, hop, hbits]
  exact ⟨hn, rfl⟩

end

namespace Laws

open RoundTrip in
theorem roundTrip (i : Instr) : RoundTrip.Statement i := by
  cases i
  exacts [ldaImmediate, ldaAbsolute, ldaAccumulator, ldaZeroPage, ldaZeroPageIndexedX, ldaZeroPageIndirectIndexedX,
    staAbsolute, staAccumulator, staZeroPage, staZeroPageIndexedY, staZeroPageIndirectIndexedY, ldxImmediate,
    ldxAbsolute, ldxAccumulator, ldxZeroPage, ldxZeroPageIndexedX, ldxZeroPageIndirectIndexedX, ldyImmediate,
    ldyAbsolute, ldyAccumulator, ldyZeroPage, ldyZeroPageIndexedX, ldyZeroPageIndirectIndexedX, txs _, andImmediate,
    andAbsolute, andAccumulator, andZeroPage, andZeroPageIndexedX, andZeroPageIndirectIndexedX, oraImmediate,
    oraAbsolute, oraAccumulator, oraZeroPage, oraZeroPageIndexedX, oraZeroPageIndirectIndexedX, adcImmediate,
    adcAbsolute, adcAccumulator, adcZeroPage, adcZeroPageIndexedX, adcZeroPageIndirectIndexedX, cmpImmediate,
    cmpAbsolute, cmpAccumulator, cmpZeroPage, cmpZeroPageIndexedX, cmpZeroPageIndirectIndexedX, cpyImmediate,
    cpyAbsolute, cpyAccumulator, cpyZeroPage, cpyZeroPageIndexedX, cpyZeroPageIndirectIndexedX, decAbsolute,
    decAccumulator, decZeroPage, dey _, lsrAbsolute, lsrAccumulator, lsrZeroPage, jmpAbsolute, jsrAbsolute, rts _,
    beqRelative, bneRelative, sei _, cld _, clc _, sec _]

end Laws

theorem Instr.wellFormed_eq_true (i : Instr) : i.wellFormed = true := (Laws.roundTrip i).1

@[simp] theorem decode_encode (i : Instr) : decode (encode i) = .ok i := (Laws.roundTrip i).2

theorem decode_eq_ok {dw : DispatchWord} {i : Instr} : decode dw = .ok i ↔ encode i = dw :=
  ⟨encode_of_decode, fun h => h ▸ decode_encode i⟩

/-- Settles O33: a word is the two fields of the instruction found for them, and every instruction's word decodes to
it. -/
theorem decodeAndEncodeAgree : Obligations.DecodeAndEncodeAgree :=
  ⟨fun _ _ => decode_eq_ok, fun _ i _ => i.wellFormed_eq_true⟩

end Sys2Proof
end

section
/-! The admitted words (R66, R72 to R75): those of an operation with a mode number that goes with it. Dispatch runs the
handler of such a word and latches the fault of any other. -/

namespace Sys2Proof

open Machine

section
variable {dw : DispatchWord} {op : Operation} (h : op.number = opField dw)
include h

theorem decode_of_not_admits (ha : op.admits (modeField dw) = false) :
    decode dw = .error ⟨.illegalModeAccess, dw⟩ := by
  rw [← instrOf_isSome, Option.isSome_eq_false_iff, Option.isNone_iff_eq_none] at ha
  exact decode_illegal h ha

theorem decode_of_admits (ha : op.admits (modeField dw) = true) : ∃ i : Instr, decode dw = .ok i ∧
    i.operation = op ∧ i.mode = if op.ignoresMode then none else Mode.ofNumber (modeField dw) := by
  rw [← instrOf_isSome, Option.isSome_iff_exists] at ha
  obtain ⟨i, hi⟩ := ha
  obtain ⟨hop, -, hmode⟩ := instrOf_spec op _ i hi
  exact ⟨i, decode_instrOf h hi, hop, hmode⟩

end

section
variable {dw : DispatchWord}

theorem isAdmittedWord_iff_decode : isAdmittedWord dw = true ↔ ∃ i, decode dw = .ok i := by
  cases h : decode dw <;> simp [isAdmittedWord, h]

theorem isAdmittedWord_iff_admits : isAdmittedWord dw = true ↔
    ∃ op : Operation, op.number = opField dw ∧ op.admits (modeField dw) = true := by
  rw [isAdmittedWord_iff_decode]
  constructor
  · rintro ⟨i, hi⟩
    obtain ⟨op, hn, hop⟩ := instrOf_of_decode hi
    exact ⟨op, hn, by rw [← instrOf_isSome, hop, Option.isSome_some]⟩
  · rintro ⟨op, hn, ha⟩
    obtain ⟨i, hi, -⟩ := decode_of_admits hn ha
    exact ⟨i, hi⟩

theorem dispatch_of_fault {f : DecodeFault} (h : decode dw = .error f) (s : State) :
    dispatch dw s = .next { s with fault := some f } := by
  simp [dispatch, h, raiseDecodeFault_spec]

theorem dispatch_of_decode {i : Instr} (h : decode dw = .ok i) (s : State) : dispatch dw s = exec i s := by
  simp [dispatch, h]

end

/-- Settles O27, by the cases of the decoder: no operation, an operation that ignores its mode, no mode, a pair. -/
theorem dispatchFaultsOrRunsHandler : Obligations.DispatchFaultsOrRunsHandler := by
  intro dw s
  rw [← opField_toNat, ← modeField_toNat]
  refine ⟨fun hbig => dispatch_of_fault (decode_unknown (Operation.ofNumber_eq_none.mpr hbig)) s, fun op hop => ?_⟩
  have hn : op.number = opField dw := BitVec.eq_of_toNat_eq hop
  refine ⟨fun hignores => ?_, fun htakes hbig => ?_, fun m hm htakes => ?_⟩
  · obtain ⟨i, hdec, hi, -⟩ := decode_of_admits hn (by simp [Operation.admits, hignores])
    exact ⟨i, hi, encode_of_decode hdec, dispatch_of_decode hdec s⟩
  · have hnone := Mode.ofNumber_eq_none.mpr hbig
    exact dispatch_of_fault (decode_of_not_admits hn (by simp [Operation.admits, htakes, hnone])) s
  · have hsome : Mode.ofNumber (modeField dw) = some m := Mode.ofNumber_eq_some.mpr (BitVec.eq_of_toNat_eq hm)
    have hpair : op.admits (modeField dw) = admitted op m := by simp [Operation.admits, htakes, hsome]
    refine ⟨fun hno => dispatch_of_fault (decode_of_not_admits hn (hpair.trans hno)) s, fun hyes => ?_⟩
    obtain ⟨i, hdec, hi, hmode⟩ := decode_of_admits hn (hpair.trans hyes)
    exact ⟨i, hi, by simpa [htakes, hsome] using hmode, dispatch_of_decode hdec s⟩

/-- The table of R72 in numbers: operation number `n` goes with mode number `k`. -/
abbrev AdmittedNumbers (n k : Nat) : Prop :=
  n ∈ [4, 11, 15, 18, 19, 20, 21] ∨
  (n ∈ [0, 2, 3, 5, 6, 7, 8, 9] ∧ k ∈ [0, 1, 3, 4, 5, 7]) ∨
  (n = 1 ∧ k ∈ [1, 3, 4, 6, 8]) ∨
  (n ∈ [10, 12] ∧ k ∈ [1, 3, 4]) ∨
  (n ∈ [13, 14] ∧ k = 1) ∨ (n ∈ [16, 17] ∧ k = 2)

theorem AdmittedNumbers.le {n k : Nat} (h : AdmittedNumbers n k) : n ≤ 21 := by
  simp only [AdmittedNumbers, List.mem_cons, List.not_mem_nil, or_false] at h
  omega

/-- The closure over the access tables is the numeric table, operation by operation. -/
theorem admits_iff_admittedNumbers (op : Operation) :
    ∀ b, op.admits b = true ↔ AdmittedNumbers op.number.toNat b.toNat := by
  cases op <;> decide

theorem isAdmittedWord_iff_admittedNumbers (dw : DispatchWord) :
    isAdmittedWord dw = true ↔ AdmittedNumbers (dw.toNat / 16) (dw.toNat % 16) := by
  rw [isAdmittedWord_iff_admits, ← opField_toNat, ← modeField_toNat]
  constructor
  · rintro ⟨op, hn, h⟩
    exact hn ▸ (admits_iff_admittedNumbers op _).mp h
  · intro h
    cases hop : Operation.ofNumber (opField dw) with
    | none => exact absurd (Operation.ofNumber_eq_none.mp hop) (Nat.not_lt.mpr h.le)
    | some op =>
      have hn := Operation.ofNumber_eq_some.mp hop
      exact ⟨op, hn, (admits_iff_admittedNumbers op _).mpr (hn ▸ h)⟩

theorem admitted_iff (op : Operation) (m : Mode) : admitted op m = true ↔
    (∀ k ∈ op.accesses, k.hasEntry m = true) ∧ op.ignoresMode = false ∧ (m = .relative ↔ op = .beq ∨ op = .bne) := by
  have hbranch : ((m == .relative) == op.isBranch) = true ↔ (m = .relative ↔ op = .beq ∨ op = .bne) := by
    rw [beq_iff_eq, Bool.eq_iff_iff]
    simp [Operation.isBranch]
  simp [admitted, hbranch, and_assoc, and_left_comm]

theorem admittedWords_count :
    ((List.range 512).filter (fun n => isAdmittedWord (BitVec.ofNat 9 n))).length = 63 + 7 * 16 := by
  decide +kernel

/-- Settles O28: the words, the pairs and the count. -/
theorem admittedSetIsTableClosure : Obligations.AdmittedSetIsTableClosure :=
  ⟨isAdmittedWord_iff_admittedNumbers, admitted_iff, admittedWords_count⟩

end Sys2Proof
end

section
/-! The opcode table (R82): its rows are those of the instructions, and a word fits the row of the instruction it
decodes to and no other. -/

namespace Sys2Proof

open Machine

/-- The columns of an instruction as a row of the opcode table (R82). The mask of a mode-less operation leaves the mode
field out (R67). -/
def Instr.row (i : Instr) : OpcodeRow where
  mnemonic := i.operation.mnemonic
  mode := i.mode
  format := i.format
  matchWord := i.operation.number ++ i.mode.elim 0#4 Mode.number
  mask := if i.mode.isNone then 0x1F0#9 else 0x1FF#9
  length := i.length
  opcodeByte := decode6502.byteFor (i.operation.number ++ i.mode.elim 0#4 Mode.number)

/-- Every row is the row of the instruction its word decodes to. -/
theorem row_of_matchWord : ∀ r ∈ opcodeTable, (decode r.matchWord).toOption.map Instr.row = some r := by
  decide

theorem exists_row_of_mem {r : OpcodeRow} (h : r ∈ opcodeTable) : ∃ i : Instr, i.row = r := by
  obtain ⟨i, -, hi⟩ := Option.map_eq_some_iff.mp (row_of_matchWord r h)
  exact ⟨i, hi⟩

theorem row_mem_opcodeTable (i : Instr) : i.row ∈ opcodeTable := by
  cases i <;> decide +kernel +revert

theorem opcodeTable_nodup : opcodeTable.Nodup := by decide

/-- A row depends on the operation and the mode only. -/
theorem row_congr {i j : Instr} (hop : i.operation = j.operation) (hmode : i.mode = j.mode) : i.row = j.row := by
  simp [Instr.row, Instr.format, Instr.length, Instr.operandBytes, hop, hmode]

theorem modeBits_of_mode {i : Instr} {m : Mode} (h : i.mode = some m) : i.modeBits = m.number := by
  unfold Instr.modeBits
  split <;> simp_all [Instr.mode]

/-- An instruction without a mode is one of the seven that ignore the mode field (R67). -/
theorem ignoresMode_of_modeless {i : Instr} (h : i.mode = none) : i.operation.ignoresMode = true := by
  simpa [Instr.wellFormed, h] using i.wellFormed_eq_true

/-- The mask 0x1F0 leaves the operation number (R66, R67). -/
theorem and_opMask (dw : DispatchWord) : dw &&& 0x1F0#9 = opField dw ++ 0#4 := by
  have hdw : opField dw ++ modeField dw = dw := (append_eq_iff_fields dw _ _).mpr ⟨rfl, rfl⟩
  calc dw &&& 0x1F0#9 = (opField dw ++ modeField dw) &&& (BitVec.allOnes 5 ++ 0#4) := by rw [hdw]; rfl
    _ = (opField dw &&& BitVec.allOnes 5) ++ (modeField dw &&& 0#4) := BitVec.and_append
    _ = opField dw ++ 0#4 := by rw [BitVec.and_allOnes, BitVec.and_zero]

section
variable {i : Instr} {dw : DispatchWord}

theorem row_fits_modeless (h : i.mode = none) : i.row.fits dw = true ↔ opField dw = i.operation.number := by
  simpa [OpcodeRow.fits, Instr.row, h, and_opMask] using BitVec.append_left_inj 0#4

theorem row_fits_mode {m : Mode} (h : i.mode = some m) : i.row.fits dw = true ↔ dw = encode i := by
  have hmask : dw &&& 0x1FF#9 = dw := BitVec.and_allOnes
  simp [OpcodeRow.fits, Instr.row, h, hmask, encode, modeBits_of_mode h]

theorem row_fits_of_decode (h : decode dw = .ok i) : i.row.fits dw = true := by
  have henc := encode_of_decode h
  cases hm : i.mode with
  | none => exact (row_fits_modeless hm).mpr ((append_eq_iff_fields dw _ _).mp henc).1.symm
  | some m => exact (row_fits_mode hm).mpr henc.symm

theorem decode_of_row_fits (h : i.row.fits dw = true) : ∃ j : Instr, decode dw = .ok j ∧ j.row = i.row := by
  cases hm : i.mode with
  | none =>
    have hignores := ignoresMode_of_modeless hm
    obtain ⟨j, hj, hop, hmode⟩ :=
      decode_of_admits ((row_fits_modeless hm).mp h).symm (by simp [Operation.admits, hignores])
    exact ⟨j, hj, row_congr hop (by rw [hmode, hm, if_pos hignores])⟩
  | some m => exact ⟨i, decode_eq_ok.mpr ((row_fits_mode hm).mp h).symm, rfl⟩

theorem eq_row_of_fits {r : OpcodeRow} (hdec : decode dw = .ok i) (hr : r ∈ opcodeTable) (h : r.fits dw = true) :
    r = i.row := by
  obtain ⟨j, rfl⟩ := exists_row_of_mem hr
  obtain ⟨k, hk, hrow⟩ := decode_of_row_fits h
  cases hk.symm.trans hdec
  exact hrow.symm

end

/-- Settles O29: a row that fits is the row of the decoded instruction. -/
theorem opcodeTableDecodes : Obligations.OpcodeTableDecodes := by
  refine ⟨rfl, fun dw => ?_, fun dw i hdec r hr hfits => ?_, ?_⟩
  · rw [isAdmittedWord_iff_decode]
    constructor
    · rintro ⟨i, hi⟩
      exact ⟨i.row, row_mem_opcodeTable i, row_fits_of_decode hi⟩
    · rintro ⟨r, hr, hfits⟩
      obtain ⟨i, rfl⟩ := exists_row_of_mem hr
      obtain ⟨j, hj, -⟩ := decode_of_row_fits hfits
      exact ⟨j, hj⟩
  · obtain rfl := eq_row_of_fits hdec hr hfits
    exact ⟨rfl, rfl, rfl, rfl, rfl⟩
  · refine opcodeTable_nodup.imp_of_mem fun hr hq hne dw ⟨hfitsr, hfitsq⟩ => hne ?_
    obtain ⟨i, rfl⟩ := exists_row_of_mem hr
    obtain ⟨j, hj, -⟩ := decode_of_row_fits hfitsr
    rw [eq_row_of_fits hj hr hfitsr, eq_row_of_fits hj hq hfitsq]

/-- The 16 words of one operation that ignores its mode field: one row, and one execution (R67, D23). -/
theorem modeFieldIgnored_of_modeless {op : Operation} (mk : BitVec 4 → Instr)
    (hword : ∀ m, encode (mk m) = op.number ++ m := by intro; rfl)
    (hop : ∀ m, (mk m).operation = op := by intro; rfl) (hmode : ∀ m, (mk m).mode = none := by intro; rfl)
    (hexec : ∀ m s, exec (mk m) s = exec (mk 0) s := by intros; rfl) :
    (∃ r ∈ opcodeTable, r.mnemonic = op.mnemonic ∧ r.mask = 0x1F0#9) ∧ ∀ m : BitVec 4,
    ∃ i j : Instr, decode (op.number ++ m) = .ok i ∧ decode (op.number ++ 0#4) = .ok j ∧
      i.operation = op ∧ i.mode = none ∧ i.length = 1 ∧ ∀ s : State, exec i s = exec j s := by
  refine ⟨⟨(mk 0).row, row_mem_opcodeTable _, by simp [Instr.row, hop], by simp [Instr.row, hmode]⟩, fun m => ?_⟩
  have hlength : (mk m).length = 1 := by simp [Instr.length, Instr.operandBytes, hmode]
  exact ⟨mk m, mk 0, decode_eq_ok.mpr (hword m), decode_eq_ok.mpr (hword 0), hop m, hmode m, hlength, hexec m⟩

/-- Settles O30, for each of the seven operations. -/
theorem modeFieldIgnored : Obligations.ModeFieldIgnored := by
  intro op hop
  simp only [List.mem_cons, List.not_mem_nil, or_false] at hop
  rcases hop with rfl | rfl | rfl | rfl | rfl | rfl | rfl
  · exact modeFieldIgnored_of_modeless .txs
  · exact modeFieldIgnored_of_modeless .dey
  · exact modeFieldIgnored_of_modeless .rts
  · exact modeFieldIgnored_of_modeless .sei
  · exact modeFieldIgnored_of_modeless .cld
  · exact modeFieldIgnored_of_modeless .clc
  · exact modeFieldIgnored_of_modeless .sec

end Sys2Proof
end

section
/-! Opcode bytes under a decoder map (R70, R71, R77), and the lines of assembly that begin with them (R60, R61, R80). -/

namespace Sys2Proof

open Machine

section
variable {map : DecodeMap} {b : Byte} {dw : DispatchWord}

theorem DecodeMap.mem_of_lookup (h : map.lookup b = some dw) : (b, dw) ∈ map := by
  induction map with
  | nil => cases h
  | cons e rest ih =>
    rw [DecodeMap.lookup] at h
    split at h
    · cases h; subst_vars; exact List.mem_cons_self
    · exact List.mem_cons_of_mem _ (ih h)

/-- A byte found for a word stands for it. -/
theorem DecodeMap.lookup_of_byteFor (h : map.byteFor dw = some b) : map.lookup b = some dw := by
  obtain ⟨e, he, rfl⟩ := Option.map_eq_some_iff.mp h
  have hfound := List.find?_some he
  simp only [Bool.and_eq_true, beq_iff_eq] at hfound
  exact hfound.2

theorem decodeByte_of_lookup (h : map.lookup b = some dw) : decodeByte map b = decode dw := by
  simp [decodeByte, h]

theorem decodeByte_unmapped (h : map.lookup b = none) :
    decodeByte map b = .error ⟨.unknownOpcode, b.zeroExtend 9⟩ := by
  simp [decodeByte, h]

/-- Under a map inside the admitted set a byte of its domain stands for an instruction (R70). -/
theorem decodeByte_of_wellFormed (hwf : map.wellFormed = true) (h : map.lookup b = some dw) :
    ∃ i, decodeByte map b = .ok i := by
  rw [decodeByte_of_lookup h, ← isAdmittedWord_iff_decode]
  simp only [DecodeMap.wellFormed, Bool.and_eq_true, List.all_eq_true] at hwf
  exact hwf.1 (b, dw) (DecodeMap.mem_of_lookup h)

end

theorem Line.operands_length {l : Line} (h : l.wellFormed = true) : l.operands.length = l.instr.operandBytes := by
  simp only [Line.wellFormed, Bool.and_eq_true, beq_iff_eq] at h
  exact h.2

/-- Settles O34: the line's first byte stands for its instruction's word, and the operand bytes are as many as that
instruction takes. -/
theorem linesRoundTrip : Obligations.LinesRoundTrip := by
  intro map l bytes rest hwf henc
  obtain ⟨b, hb, rfl⟩ := Option.map_eq_some_iff.mp henc
  have hlength := Line.operands_length hwf
  have hdec : decodeByte map b = .ok l.instr :=
    (decodeByte_of_lookup (DecodeMap.lookup_of_byteFor hb)).trans (decode_encode l.instr)
  constructor
  · simp [decodeLine, hdec, ← hlength]
  · simp [Instr.length, hlength, Nat.add_comm]

/-- Settles O31, by evaluation. -/
theorem writtenOutWordsDecode : Obligations.WrittenOutWordsDecode := by
  unfold Obligations.WrittenOutWordsDecode
  decide

theorem decode6502_unmapped_count :
    ((List.range 256).filter (fun n => decode6502.lookup (BitVec.ofNat 8 n) == none)).length = 207 := by
  decide +kernel

/-- Settles O32: what is said of the listed bytes and rows is evaluated. -/
theorem defaultMapMeetsItsRequirement : Obligations.DefaultMapMeetsItsRequirement :=
  ⟨rfl, wellFormed_decode6502, decode6502_unmapped_count, fun _ => decodeByte_unmapped, by decide⟩

end Sys2Proof
end

section
/-! The step of a ready core, by what the byte at `PC` stands for (R77, R78), from the state in which the opcode byte is
fetched. -/

namespace Sys2Proof.Machine

open Claims

section
variable {s : State} (hr : Ready s)
include hr

theorem step_of_decodeByte {i : Instr} (h : decodeByte s.decodeMap (opcodeAt s) = .ok i) :
    step s = exec i (fetched s) := by
  rw [opcodeAt] at h
  rw [step_of_ready s hr, fetchAndDispatch_eq, h]
  rfl

theorem step_of_decodeFault {f : DecodeFault} (h : decodeByte s.decodeMap (opcodeAt s) = .error f) :
    step s = .next { fetched s with fault := some f } := by
  rw [opcodeAt] at h
  rw [step_of_ready s hr, fetchAndDispatch_eq, h]
  rfl

theorem step_of_unmapped (h : s.decodeMap.lookup (opcodeAt s) = none) :
    step s = .next { fetched s with fault := some ⟨.unknownOpcode, (opcodeAt s).zeroExtend 9⟩ } :=
  step_of_decodeFault hr (decodeByte_unmapped h)

end

/-- Settles O35. -/
theorem stepRunsTheDecodedInstruction : Obligations.StepRunsTheDecodedInstruction :=
  fun _ _ hr => step_of_decodeByte hr

/-- Settles O38. -/
theorem unknownByteFaultsAfterFetch : Obligations.UnknownByteFaultsAfterFetch :=
  ⟨decode6502_unmapped_count, fun _ hr h => ⟨_, step_of_unmapped hr h, rfl, rfl⟩⟩

/-- Settles O40: a byte outside the map latches UnknownOpcode, and any other stands for an instruction, which leaves the
latch clear. -/
theorem legalMapNeverFaultsOnMode : Obligations.LegalMapNeverFaultsOnMode := by
  intro s t hwf hr h
  cases hlookup : s.decodeMap.lookup (opcodeAt s) with
  | none =>
    cases (step_of_unmapped hr hlookup).symm.trans h
    simp
  | some dw =>
    obtain ⟨i, hi⟩ := decodeByte_of_wellFormed hwf hlookup
    obtain ⟨u, ts, hu, hissues⟩ := exec_issues i (fetched s)
    cases hu.symm.trans ((step_of_decodeByte hr hi).symm.trans h)
    have hnone : t.fault = none := hissues.fault.trans hr.1
    simp [hnone]

end Sys2Proof.Machine
end

section
/-! `PC` after an instruction that does not write it (R61, R68): each resolution moves it past its own operand bytes. -/

namespace Sys2Proof.Machine

open Claims

theorem writeOp_pc (w : WriteMode) (v : Byte) (s : State) : (writeOp w v s).pc = s.pc + writeWidth w := by
  cases w with
  | accumulator => exact (BitVec.add_zero s.pc).symm
  | absolute | zeroPage | zeroPageIndexedY | zeroPageIndirectIndexedY => rfl

/-- LSR and DEC move `PC` by both their resolutions (R63). -/
theorem rmw_pc (r : RmwMode) (v : Byte) (s : State) :
    (writeOp (rmwWrite r) v (readOp (rmwRead r) s).2).pc = s.pc + rmwWidth r := by
  rw [writeOp_pc, readOp_pc, BitVec.add_assoc]
  cases r <;> rfl

/-- Settles O46, by operation: the width of the mode is the instruction's operand bytes. -/
theorem instructionAdvancesPcByItsLength : Obligations.InstructionAdvancesPcByItsLength := by
  intro i s t hi h
  induction i, t, h using exec_cases with
  | lda m | ldx m | ldy m | and m | ora m | adc m | cmp m | cpy m =>
    exact (readOp_pc s m).trans (by cases m <;> rfl)
  | sta m => exact (writeOp_pc m s.a s).trans (by cases m <;> rfl)
  | dec r => exact (rmw_pc r _ s).trans (by cases r <;> rfl)
  | lsr r =>
    simp only [lsr, updateP, writeOp_setP]
    exact (rmw_pc r _ s).trans (by cases r <;> rfl)
  | txs | dey | sei | cld | clc | sec => exact (BitVec.add_zero s.pc).symm
  | jmp | jsr | rts | beq | bne => cases hi

end Sys2Proof.Machine
end

section
/-! Runs compose (R79): the rest of a run begins where its first part ended, unless that returned false. -/

namespace Sys2Proof.Machine

/-- Settles O55, by induction on the steps of the first part. -/
theorem runStopsAtFirstFalse : Obligations.RunStopsAtFirstFalse := by
  refine ⟨fun s => rfl, fun s t h => ?_, fun m n s => ?_⟩
  · cases hresult : stepResult t <;> simp [runSteps, h, hresult]
  · induction m generalizing s with
    | zero => rw [Nat.zero_add]; rfl
    | succ m ih =>
      rw [Nat.add_right_comm, runSteps, runSteps]
      cases hstep : step s with
      | next t => cases hresult : stepResult t <;> simp [hresult, ih]
      | fault r => rfl
      | refused r => rfl

end Sys2Proof.Machine
end

section
/-! The resolutions of the addressing modes for any memory agent (R97 to R112): each gives a value or an address
computed from the agent's answers to the reads it issues, at addresses in the closed form of `addr`. An effective
address is described once and serves the read and the write mode that take it. -/

namespace Sys2Proof.Machine

open Claims

/-- Answers listed from number 0 on, for the reads of a resolution. -/
def answers (bs : List Byte) : Answers := fun k => bs.getD k 0

@[simp] theorem rd_toNat (a : Addr) (v : Byte) : rd a.toNat v = .read a v := by rw [rd, addr_toNat]

theorem rd_toNat_add_one (a : Addr) (v : Byte) : rd (a.toNat + 1) v = .read (a + 1) v := by
  rw [rd, addr_add, addr_toNat]; rfl

section
variable {ts : List Transaction} {s t : State} {a : Addr} {n : Nat} {z : Byte}

/-- After some transactions, one more read, at an address in its closed form. -/
theorem Issues.read (h : Issues ts s t) (ha : a = addr n) :
    Issues (ts ++ [rd n (memRead a t).1]) s (memRead a t).2 :=
  ha ▸ h.trans (memRead_issues t (addr n))

/-- After some transactions, a write at an address in its closed form. -/
theorem Issues.write (h : Issues ts s t) (ha : a = addr n) (v : Byte) :
    Issues (ts ++ [.write (addr n) v]) s (memWrite a v t) :=
  ha ▸ h.trans (memWrite_issues t a v)

theorem zext16_add_one : zext16 z + 1 = addr (z.toNat + 1) := by rw [addr_add, ← zext16_eq_addr]; rfl

/-- A zero-page sum is not reduced to 8 bits (R102, R109). -/
theorem zext16_add_zext16 (index : Byte) : zext16 z + zext16 index = addr (z.toNat + index.toNat) := by
  rw [addr_add, ← zext16_eq_addr, ← zext16_eq_addr]

/-- The index is added to the address read, modulo 2^16 (R103, R110). -/
theorem word16_add_zext16 (lo hi index : Byte) :
    word16 lo hi + zext16 index = addr (le16 lo hi + index.toNat) := by
  rw [addr_add, ← word16_eq_addr, ← zext16_eq_addr]

end

section
variable (s : State)

theorem fetchByte_reads : Issues [rd s.pc.toNat (fetchByte s).1] s (fetchByte s).2 := by
  rw [rd_toNat]; exact fetchByte_issues s

/-- The two bytes at `PC`, low byte first, and the address they encode (R95, R112). -/
theorem addrOf_reads : ∃ lo hi, Issues [rd s.pc.toNat lo, rd (s.pc.toNat + 1) hi] s (addrOf s).2 ∧
    (addrOf s).1 = addr (le16 lo hi) := by
  refine ⟨_, _, ?_, word16_eq_addr _ _⟩
  rw [rd_toNat, rd_toNat_add_one]
  exact (memRead_issues s s.pc).trans (memRead_issues _ (s.pc + 1))

/-- The effective address of mode Absolute is the address supplier's (R98, R106). -/
theorem absoluteEa_reads : ∃ lo hi, Issues [rd s.pc.toNat lo, rd (s.pc.toNat + 1) hi] s (absoluteEa s).2 ∧
    (absoluteEa s).1 = addr (le16 lo hi) := by
  obtain ⟨lo, hi, h, hea⟩ := addrOf_reads s
  exact ⟨lo, hi, h.regs rfl rfl rfl rfl rfl rfl, hea⟩

/-- An indirect indexed mode reads the zero-page byte, then the pointer, whose high byte stands at `z + 1` and wraps
nowhere (R103, R110). -/
theorem indirectIndexedEa_reads (index : Byte) : ∃ z lo hi : Byte,
    Issues [rd s.pc.toNat z, rd z.toNat lo, rd (z.toNat + 1) hi] s (indirectIndexedEa index s).2 ∧
    (indirectIndexedEa index s).1 = addr (le16 lo hi + index.toNat) :=
  ⟨_, _, _, ((fetchByte_reads s).read (zext16_eq_addr _)).read zext16_add_one, word16_add_zext16 _ _ index⟩

/-- A read resolution issues its mode's reads and gives the value its mode takes from the answers. -/
theorem readOp_reads (m : ReadMode) : ∃ b, Issues (readBus m s b) s (readOp m s).2 ∧
    (readOp m s).1 = readValue m s b := by
  cases m with
  | immediate => exact ⟨answers [(fetchByte s).1], fetchByte_reads s, rfl⟩
  | accumulator => exact ⟨answers [], .refl s, rfl⟩
  | absolute =>
    obtain ⟨lo, hi, h, hea⟩ := absoluteEa_reads s
    exact ⟨answers [lo, hi, (readOp .absolute s).1], h.read hea, rfl⟩
  | zeroPage =>
    exact ⟨answers [(fetchByte s).1, (readOp .zeroPage s).1], (fetchByte_reads s).read (zext16_eq_addr _), rfl⟩
  | zeroPageIndexedX =>
    exact ⟨answers [(fetchByte s).1, (readOp .zeroPageIndexedX s).1],
      (fetchByte_reads s).read (zext16_add_zext16 s.x), rfl⟩
  | zeroPageIndirectIndexedX =>
    obtain ⟨z, lo, hi, h, hea⟩ := indirectIndexedEa_reads s s.x
    exact ⟨answers [z, lo, hi, (readOp .zeroPageIndirectIndexedX s).1], h.read hea, rfl⟩

/-- A write resolution issues its mode's reads, then the write at the effective address. -/
theorem writeOp_writes (m : WriteMode) (v : Byte) : ∃ b, Issues (writeBus m v s b) s (writeOp m v s) := by
  cases m with
  | accumulator => exact ⟨answers [], (Issues.refl s).regs rfl rfl rfl rfl rfl rfl⟩
  | absolute =>
    obtain ⟨lo, hi, h, hea⟩ := absoluteEa_reads s
    exact ⟨answers [lo, hi], h.write hea v⟩
  | zeroPage => exact ⟨answers [(fetchByte s).1], (fetchByte_reads s).write (zext16_eq_addr _) v⟩
  | zeroPageIndexedY => exact ⟨answers [(fetchByte s).1], (fetchByte_reads s).write (zext16_add_zext16 s.y) v⟩
  | zeroPageIndirectIndexedY =>
    obtain ⟨z, lo, hi, h, hea⟩ := indirectIndexedEa_reads s s.y
    exact ⟨answers [z, lo, hi], h.write hea v⟩

end

/-- A 16-bit address plus a sign-extended displacement is the signed sum modulo 2^16 (R99). -/
theorem add_sext16 (a : Addr) (d : Byte) : a + sext16 d = BitVec.ofInt 16 ((a.toNat : Int) + d.toInt) := by
  rw [sext16_eq_ofInt, BitVec.ofInt_add, BitVec.ofInt_natCast, BitVec.ofNat_toNat, BitVec.setWidth_eq]

/-- Settles O20: the reads are `readOp_reads`, and a read resolution moves nothing else but `PC`. -/
theorem readResolutions : Obligations.ReadResolutions := by
  intro m s
  obtain ⟨b, h, hvalue⟩ := readOp_reads s m
  refine ⟨b, (readOp m s).2.mem, h.mem, Prod.ext hvalue ?_⟩
  rw [← readOp_pc, ← h.bus]
  exact readOp_frame s m

/-- Settles O21. -/
theorem branchTargetResolution : Obligations.BranchTargetResolution := by
  intro s
  refine ⟨(s.mem.read s.pc).1, (readRelative s).2.mem, ?_, ?_⟩
  · rw [rd_toNat]; exact (readRelative_issues s).mem
  · rw [← add_sext16, rd_toNat]; exact readRelative_spec s

/-- Settles O22: the transactions are `writeOp_writes`, and a write resolution moves nothing else but `PC` and `A`. -/
theorem writeResolutions : Obligations.WriteResolutions := by
  intro m v s
  obtain ⟨b, h⟩ := writeOp_writes s m v
  refine ⟨b, (writeOp m v s).mem, h.mem, ?_⟩
  rw [← writeOp_pc m v s, ← writeOp_a, ← h.bus]
  exact writeOp_frame s m v

/-- Settles O23: `Read16` moves no register. -/
theorem addressSupplyLeavesPc : Obligations.AddressSupplyLeavesPc := by
  intro s
  obtain ⟨lo, hi, h, hea⟩ := addrOf_reads s
  refine ⟨lo, hi, (addrOf s).2.mem, h.mem, Prod.ext hea ?_⟩
  rw [← h.bus]
  rfl

end Sys2Proof.Machine
end

section
/-! The stack primitives (R93, R94): a slot's address in closed form, and a pull that undoes a push. -/

namespace Sys2Proof.Machine

open Claims

theorem stackSlot_eq_addr (sp : Byte) : stackBase + zext16 sp = addr (0x100 + sp.toNat) := by
  rw [← stackSlot_toNat, addr_toNat]

/-- Where the slot at `SP` is a stored byte that can be written, a pull right after a push gives the byte pushed. -/
theorem pull_push {s : State} {n : Nat} (hwf : s.mem.cells.wf = true)
    (hslot : route s.mem.map (stackBase + zext16 s.sp).toNat = .cell n true) (v : Byte) : (pull (push v s)).1 = v := by
  simp only [pull_spec, push_spec, BitVec.sub_add_cancel]
  rw [MemAgent.read_write_cell hwf hslot hslot, if_pos rfl]

theorem pull_push_sp (v : Byte) (s : State) : (pull (push v s)).2.sp = s.sp := BitVec.sub_add_cancel s.sp 1

/-- Settles O24. -/
theorem stackPrimitives : Obligations.StackPrimitives := by
  refine ⟨fun v s => ?_, fun s => ?_, fun v s ⟨hmap, hwf⟩ => ?_⟩
  · simp only [← stackSlot_eq_addr]
    exact push_spec s v
  · simp only [rd, ← stackSlot_eq_addr]
    exact ⟨(pull s).1, (pull s).2.mem, (pull_issues s).mem, pull_spec s⟩
  · exact ⟨pull_push hwf (by rw [hmap, route_nil]) v, pull_push_sp v s⟩

end Sys2Proof.Machine
end

section
/-! The signed readings of a byte (R85, R86): `wrap8` after `to_signed` is the byte, and `to_signed` after `wrap8` is the
balanced remainder modulo 256, so it gives the number back on its own range only. -/

namespace Sys2Proof.Machine

theorem toSigned_bounds (v : Byte) : -128 ≤ toSigned v ∧ toSigned v ≤ 127 := by
  have := v.isLt
  unfold toSigned
  split <;> omega

theorem wrap8_toSigned (v : Byte) : wrap8 (toSigned v) = v := by
  rw [toSigned_eq_toInt, wrap8, BitVec.ofInt_toInt]

theorem toSigned_wrap8 (r : Int) : toSigned (wrap8 r) = r.bmod 256 := by
  rw [toSigned_eq_toInt, wrap8, BitVec.toInt_ofInt]

theorem toSigned_wrap8_eq_self_iff (r : Int) : toSigned (wrap8 r) = r ↔ -128 ≤ r ∧ r ≤ 127 := by
  constructor
  · intro h
    exact h ▸ toSigned_bounds (wrap8 r)
  · rintro ⟨hlo, hhi⟩
    rw [toSigned_wrap8]
    exact Int.bmod_eq_of_le (by omega) (by omega)

/-- Settles O25. -/
theorem signedConversions : Obligations.SignedConversions :=
  ⟨fun _ => rfl, toSigned_bounds, wrap8_toNat, wrap8_toSigned, toSigned_wrap8_eq_self_iff⟩

end Sys2Proof.Machine
end

section
/-! The status operations bit by bit (R88 to R92): each writes the bit of a flag, `RespondToLoad` those of two. -/

namespace Sys2Proof.Machine

theorem Flag.bit_lt (f : Flag) : f.bit < 8 := by cases f <;> decide

/-- The mask of a flag has its bit and no other. -/
theorem getLsbD_mask (f : Flag) (k : Nat) : f.mask.getLsbD k = decide (k = f.bit) := by
  rw [Flag.mask, ← BitVec.twoPow_eq, BitVec.getLsbD_twoPow]
  simp [f.bit_lt, eq_comm]

/-- `SetFlag` writes 1 into the flag's bit and leaves the others (R88). -/
theorem getLsbD_setFlag (f : Flag) (p : Byte) (k : Nat) :
    (setFlag f p).getLsbD k = if k = f.bit then true else p.getLsbD k := by
  rw [setFlag, BitVec.getLsbD_or, getLsbD_mask]
  split <;> simp [*]

/-- `ClearFlag` writes 0 into the flag's bit and leaves the others (R89). -/
theorem getLsbD_clearFlag (f : Flag) (p : Byte) {k : Nat} (hk : k < 8) :
    (clearFlag f p).getLsbD k = if k = f.bit then false else p.getLsbD k := by
  rw [clearFlag, BitVec.getLsbD_and, BitVec.getLsbD_not, getLsbD_mask]
  split <;> simp [*]

/-- `AssignFlag` writes the condition into the flag's bit and leaves the others (R90). -/
theorem getLsbD_assignFlag (f : Flag) (b : Bool) (p : Byte) {k : Nat} (hk : k < 8) :
    (assignFlag f b p).getLsbD k = if k = f.bit then b else p.getLsbD k := by
  cases b with
  | true => exact getLsbD_setFlag f p k
  | false => exact getLsbD_clearFlag f p hk

/-- `RespondToLoad` writes bits 1 and 7 and leaves the others (R92). -/
theorem getLsbD_respondToLoad (v p : Byte) {k : Nat} (hk : k < 8) : (respondToLoad v p).getLsbD k =
    if k = 1 then v == 0 else if k = 7 then v.msb else p.getLsbD k := by
  rw [respondToLoad, getLsbD_assignFlag _ _ _ hk, getLsbD_assignFlag _ _ _ hk, BitVec.msb_eq_getLsbD_last]
  by_cases hz : k = 1
  · subst hz; rfl
  · simp only [Flag.bit, hz, if_false]

/-- Settles O26. -/
theorem statusOperationsTouchOneBit : Obligations.StatusOperationsTouchOneBit :=
  ⟨fun f p _ hk => ⟨getLsbD_setFlag f p _, getLsbD_clearFlag f p hk,
    fun b => getLsbD_assignFlag f b p hk⟩, fun v p _ hk => getLsbD_respondToLoad v p hk⟩

end Sys2Proof.Machine
end

section
/-! The encoding tables of the instruction rules (R66, R67, R74, R75): a row's word decodes because it is the word of its
instruction, and a mode number that does not go with the operation is a decode fault. -/

namespace Sys2Proof

open Claims

/-- A row of an encoding table, from the instruction's own word: that the word decodes is `decode_eq_ok`. -/
theorem row_of_encode {i : Instr} {f : Format} {dw : DispatchWord} {len : Nat} {byte : Option Byte}
    (hword : encode i = dw := by rfl) (hformat : i.format = f := by rfl) (hlength : i.length = len := by rfl)
    (hbyte : decode6502.byteFor dw = byte := by rfl) : Row i f dw len byte :=
  ⟨hword, decode_eq_ok.mpr hword, hformat, hlength, hbyte⟩

theorem modelessRow_of_encode {mk : BitVec 4 → Instr} {base : DispatchWord} {byte : Byte}
    (hword : ∀ m : BitVec 4, encode (mk m) = base + m.zeroExtend 9) (hformat : ∀ m, (mk m).format = .f0 := by intro; rfl)
    (hlength : ∀ m, (mk m).length = 1 := by intro; rfl) (hbyte : decode6502.byteFor base = some byte := by rfl) :
    ModelessRow mk base byte :=
  ⟨fun m => ⟨hword m, decode_eq_ok.mpr (hword m), hformat m, hlength m⟩, hbyte⟩

/-- The mode numbers listed are all that go with an operation: any other is a decode fault. -/
theorem onlyModes_of_admits (op : Operation) {ms : List (BitVec 4)} (h : ∀ m, op.admits m = true → m ∈ ms) :
    OnlyModes op.number ms := by
  intro m hm
  obtain ⟨hop, hmode⟩ := (append_eq_iff_fields (op.number ++ m) op.number m).mp rfl
  exact decode_of_not_admits hop (hmode ▸ Bool.eq_false_iff.mpr (mt (h m) hm))

end Sys2Proof
end

section
/-! The loads, the store and the transfer (41_load_store_transfer.md, R120 to R124). The three loads are one handler with
its destination register as argument: a read resolution, whose value goes to the register and to Z and N. -/

namespace Sys2Proof.Machine

open Claims

/-- `RespondToLoad` in the closed form of the statements (R92). -/
theorem respondToLoad_eq_respond (s : State) (v : Byte) : respondToLoad v s.p = respond s v := by
  rw [respondToLoad_eq, ← BitVec.msb_eq_getLsbD_last]; rfl

/-- The end of a load: a value to the register `set` writes, and Z and N respond to it (R120 to R122). -/
def loadInto (set : State → Byte → State) (v : Byte) (t : State) : State := updateP (respondToLoad v) (set t v)

/-- The state after a read resolution, from the answers to its reads and the agent it leaves (R96). -/
def afterRead (m : ReadMode) (s : State) (b : Answers) (g : MemAgent) : State :=
  { s with pc := s.pc + readWidth m, mem := g, bus := s.bus ++ readBus m s b }

/-- An instruction whose handler is a load leaves the value read, from the agent's answers, in its register and in the
flags. -/
theorem exec_load {i : Instr} {m : ReadMode} {s : State} (set : State → Byte → State) (hp : ∀ t v, (set t v).p = t.p)
    (hexec : exec i s = .next (loadInto set (readOp m s).1 (readOp m s).2)) :
    ∃ (b : Answers) (g : MemAgent), s.mem.serve (readBus m s b) = some g ∧
      exec i s = .next ((set (afterRead m s b g) (readValue m s b)).setP (respond s (readValue m s b))) := by
  obtain ⟨b, g, hserve, hread⟩ := readResolutions m s
  refine ⟨b, g, hserve, ?_⟩
  rw [hexec, hread, loadInto, updateP, hp, ← respondToLoad_eq_respond]
  rfl

/-- Storing `A` through mode Accumulator changes nothing (R123). -/
theorem writtenA_self (m : WriteMode) (s : State) : writtenA m s.a s = s.a := ite_self s.a

/-- Settles O1: LDA is the load into `A`. -/
theorem ldaLoadsAccumulator : Obligations.LdaLoadsAccumulator :=
  ⟨⟨row_of_encode, row_of_encode, row_of_encode, row_of_encode, row_of_encode, row_of_encode,
    onlyModes_of_admits .lda (by decide)⟩, fun m s => exec_load State.setA State.setA_p (exec_lda m s)⟩

/-- Settles O2: LDX is the load into `X`; its resolution, index included, is made in the state before the load. -/
theorem ldxLoadsIndexX : Obligations.LdxLoadsIndexX :=
  ⟨⟨row_of_encode, row_of_encode, row_of_encode, row_of_encode, row_of_encode, row_of_encode,
    onlyModes_of_admits .ldx (by decide)⟩, fun m s => exec_load State.setX State.setX_p (exec_ldx m s)⟩

/-- Settles O3: LDY is the load into `Y`. -/
theorem ldyLoadsIndexY : Obligations.LdyLoadsIndexY :=
  ⟨⟨row_of_encode, row_of_encode, row_of_encode, row_of_encode, row_of_encode, row_of_encode,
    onlyModes_of_admits .ldy (by decide)⟩, fun m s => exec_load State.setY State.setY_p (exec_ldy m s)⟩

/-- Settles O4: a store is one write resolution of `A`. -/
theorem staStoresAccumulator : Obligations.StaStoresAccumulator := by
  refine ⟨⟨row_of_encode, row_of_encode, row_of_encode, row_of_encode, row_of_encode,
    onlyModes_of_admits .sta (by decide)⟩, fun m s => ?_⟩
  obtain ⟨b, g, hserve, hwrite⟩ := writeResolutions m s.a s
  refine ⟨b, g, hserve, ?_⟩
  rw [exec_sta, sta, hwrite, writtenA_self]

/-- Settles O5: TXS writes `SP`, and Z and N by `RespondToLoad`. -/
theorem txsCopiesXToStackPointer : Obligations.TxsCopiesXToStackPointer := by
  refine ⟨modelessRow_of_encode (by decide), fun m s => ?_⟩
  rw [exec_txs, txs, updateP, State.setSp_p, respondToLoad_eq_respond]
  rfl

end Sys2Proof.Machine
end

section
/-! The logic, add and compare instructions (42_logic_add_compare.md, R130 to R134). Each is a read resolution and then
an update of registers from the value read; AND and ORA are one such update, ADC another, CMP and CPY a third. The flags
of ADC, CMP and CPY are those of the rules as written (D25): the source's remark on a misnamed flag constant in one of
them (U6) is not modelled. -/

namespace Sys2Proof.Machine

open Claims

/-- An instruction whose handler is a read resolution and then `f` of the value read leaves what `f` makes of the
agent's answers and of the state after the resolution (R96). -/
theorem exec_afterRead {i : Instr} {m : ReadMode} {s : State} (f : Byte → State → State)
    (hexec : exec i s = .next (f (readOp m s).1 (readOp m s).2)) :
    ∃ (b : Answers) (g : MemAgent), s.mem.serve (readBus m s b) = some g ∧
      exec i s = .next (f (readValue m s b) (afterRead m s b g)) := by
  obtain ⟨b, g, hserve, hread⟩ := readResolutions m s
  exact ⟨b, g, hserve, by rw [hexec, hread]; rfl⟩

/-- The end of AND and ORA: `A` combined with the value goes to `A`, and Z and N respond to it (R130, R131). -/
def combineIntoA (op : Byte → Byte → Byte) (v : Byte) (t : State) : State := loadInto State.setA (op t.a v) t

theorem combineIntoA_eq (op : Byte → Byte → Byte) (v : Byte) (t : State) :
    combineIntoA op v t = (t.setA (op t.a v)).setP (respond t (op t.a v)) := by
  rw [combineIntoA, loadInto, updateP, State.setA_p, respondToLoad_eq_respond]

/-- The end of ADC (R132). -/
def addIntoA (v : Byte) (t : State) : State :=
  updateP (adcFlags (adcSum t.a v t.p)) (t.setA (wrap8 (adcSum t.a v t.p)))

/-- ADC's sum on the two's-complement readings (R85, R132). -/
theorem adcSum_eq (a v : Byte) (s : State) : adcSum a v s.p = a.toInt + v.toInt + if fC s then 1 else 0 := by
  rw [adcSum, toSigned_eq_toInt, toSigned_eq_toInt]; rfl

/-- Signed readings and a carry-in never add up to more than 255 (R132). -/
theorem adcSum_le (a v p : Byte) : adcSum a v p ≤ 255 := by
  have ha := (toSigned_bounds a).2
  have hv := (toSigned_bounds v).2
  have hc : carryIn (getFlag .c p) ≤ 1 := by unfold carryIn; split <;> decide
  unfold adcSum
  omega

/-- ADC's flags of a sum up to 255, where C depends on D and the bound 99 alone (R132, D24). -/
theorem adcFlags_eq_flags (s : State) {r : Int} (hr : r ≤ 255) : adcFlags r s.p =
    flags s (fD s && decide (99 < r)) (wrap8 r == 0) (fI s) (fD s) (decide (127 < r) || decide (r < -128))
      (wrap8 r).msb := by
  have h : decide (r > 255) = false := decide_eq_false (Int.not_lt.mpr hr)
  rw [adcFlags_eq, h, Bool.or_false, ← BitVec.msb_eq_getLsbD_last]
  rfl

theorem addIntoA_eq (v : Byte) (t : State) : addIntoA v t =
    let r := adcSum t.a v t.p
    (t.setA (wrap8 r)).setP (flags t (fD t && decide (99 < r)) (wrap8 r == 0) (fI t) (fD t)
      (decide (127 < r) || decide (r < -128)) (wrap8 r).msb) := by
  rw [addIntoA, updateP, State.setA_p, adcFlags_eq_flags t (adcSum_le t.a v t.p)]

/-- The end of CMP and CPY: the flags of a register compared with the value, and nothing stored (R133, R134). -/
def compareWith (reg : State → Byte) (v : Byte) (t : State) : State :=
  updateP (compareFlags (compareDiff (reg t) v)) t

/-- The unbounded difference modulo 256 is the difference of the bytes. -/
theorem wrap8_compareDiff (r v : Byte) : wrap8 (compareDiff r v) = r - v := by
  rw [wrap8, compareDiff, Int.sub_eq_add_neg, BitVec.ofInt_add, BitVec.ofInt_neg, ← BitVec.sub_eq_add_neg]
  simp

theorem compareDiff_nonneg (r v : Byte) : compareDiff r v ≥ 0 ↔ v.toNat ≤ r.toNat := by
  unfold compareDiff; omega

theorem compareDiff_eq_zero (r v : Byte) : compareDiff r v = 0 ↔ r = v := by
  rw [← BitVec.toNat_inj]; unfold compareDiff; omega

/-- The flags of a comparison in the closed form of the statements (R133, R134). -/
theorem compareFlags_eq_compared (s : State) (r v : Byte) : compareFlags (compareDiff r v) s.p = compared s r v := by
  simp only [compareFlags_eq, wrap8_compareDiff, compareDiff_nonneg, compareDiff_eq_zero]
  rfl

theorem compareWith_eq (reg : State → Byte) (v : Byte) (t : State) :
    compareWith reg v t = t.setP (compared t (reg t) v) := by
  rw [compareWith, updateP, compareFlags_eq_compared]

/-- Settles O6: AND combines by the bitwise AND. -/
theorem andWithAccumulator : Obligations.AndWithAccumulator := by
  refine ⟨⟨row_of_encode, row_of_encode, row_of_encode, row_of_encode, row_of_encode, row_of_encode,
    onlyModes_of_admits .and (by decide)⟩, fun m s => ?_⟩
  obtain ⟨b, g, hserve, hexec⟩ := exec_afterRead (combineIntoA (· &&& ·)) (exec_and m s)
  exact ⟨b, g, hserve, by rw [hexec, combineIntoA_eq]; rfl⟩

/-- Settles O7: ORA combines by the bitwise OR. -/
theorem oraWithAccumulator : Obligations.OraWithAccumulator := by
  refine ⟨⟨row_of_encode, row_of_encode, row_of_encode, row_of_encode, row_of_encode, row_of_encode,
    onlyModes_of_admits .ora (by decide)⟩, fun m s => ?_⟩
  obtain ⟨b, g, hserve, hexec⟩ := exec_afterRead (combineIntoA (· ||| ·)) (exec_ora m s)
  exact ⟨b, g, hserve, by rw [hexec, combineIntoA_eq]; rfl⟩

/-- Settles O8: the sum is at most 255, so C is set through D alone. -/
theorem adcSignedSumAndFlags : Obligations.AdcSignedSumAndFlags := by
  refine ⟨⟨row_of_encode, row_of_encode, row_of_encode, row_of_encode, row_of_encode, row_of_encode,
    onlyModes_of_admits .adc (by decide)⟩, fun m s => ?_⟩
  obtain ⟨b, g, hserve, hexec⟩ := exec_afterRead addIntoA (exec_adc m s)
  refine ⟨b, g, hserve, ?_⟩
  rw [← adcSum_eq]
  exact ⟨adcSum_le s.a _ s.p, by rw [hexec, addIntoA_eq]; rfl⟩

/-- Settles O9: CMP compares `A`. -/
theorem cmpComparesAccumulator : Obligations.CmpComparesAccumulator := by
  refine ⟨⟨row_of_encode, row_of_encode, row_of_encode, row_of_encode, row_of_encode, row_of_encode,
    onlyModes_of_admits .cmp (by decide)⟩, fun m s => ?_⟩
  obtain ⟨b, g, hserve, hexec⟩ := exec_afterRead (compareWith State.a) (exec_cmp m s)
  exact ⟨b, g, hserve, by rw [hexec, compareWith_eq]; rfl⟩

/-- Settles O10: CPY compares `Y` (D9). -/
theorem cpyComparesIndexY : Obligations.CpyComparesIndexY := by
  refine ⟨⟨row_of_encode, row_of_encode, row_of_encode, row_of_encode, row_of_encode, row_of_encode,
    onlyModes_of_admits .cpy (by decide)⟩, fun m s => ?_⟩
  obtain ⟨b, g, hserve, hexec⟩ := exec_afterRead (compareWith State.y) (exec_cpy m s)
  exact ⟨b, g, hserve, by rw [hexec, compareWith_eq]; rfl⟩

end Sys2Proof.Machine
end

section
/-! LSR, DEC and DEY (43_shift_decrement.md, R140 to R142). LSR and DEC are one read-modify-write: a read resolution, a
write resolution of what the operation computes, and its flags; the second resolution takes its operand bytes, and its
answers, after the first (R63, D7). -/

namespace Sys2Proof.Machine

open Claims

/-- LSR and DEC with what differs between them as arguments: the value stored and the flags, both computed from the
source value. -/
def readModifyWrite (m : RmwMode) (value : Byte → Byte) (status : Byte → Byte → Byte) (s : State) : State :=
  let (v, t) := readOp (rmwRead m) s
  updateP (status v) (writeOp (rmwWrite m) (value v) t)

/-- DEC's flags from its source: Z and N respond to the value stored (R141). -/
def decFlags (v p : Byte) : Byte := respondToLoad (decValue v) p

theorem dec_eq_readModifyWrite (m : RmwMode) (s : State) : dec m s = readModifyWrite m decValue decFlags s := rfl

/-- LSR writes its flags before its write resolution, which neither reads nor writes `P` (R140). -/
theorem lsr_eq_readModifyWrite (m : RmwMode) (s : State) : lsr m s = readModifyWrite m lsrValue lsrFlags s := by
  simp only [lsr, readModifyWrite, updateP, writeOp_setP, writeOp_p]

/-- How many answers the first resolution of LSR and DEC takes. -/
def rmwReads : RmwMode → Nat
  | .absolute => 3
  | .accumulator => 0
  | .zeroPage => 2

/-- The answers to both resolutions of LSR and DEC: those to the first, then those to the second. -/
def joinAnswers (m : RmwMode) (b c : Answers) : Answers :=
  fun k => if k < rmwReads m then b k else c (k - rmwReads m)

theorem rmwSource_joinAnswers (m : RmwMode) (s : State) (b c : Answers) :
    rmwSource m s (joinAnswers m b c) = readValue (rmwRead m) s b := by cases m <;> rfl

/-- A read at an address counted from a moved `PC` is one at an address counted from the `PC` before. -/
theorem rd_add_addr (a : Addr) (n k : Nat) (v : Byte) : rd ((a + addr n).toNat + k) v = rd (a.toNat + (n + k)) v := by
  simp only [rd, addr_add, addr_toNat, BitVec.add_assoc]

/-- The transactions of LSR and DEC are those of the first resolution, then those of the second, made in the state the
first leaves (R63). -/
theorem rmwBus_joinAnswers (m : RmwMode) (w : Byte) (s : State) (b c : Answers) (g : MemAgent) :
    rmwBus m w s (joinAnswers m b c) =
      readBus (rmwRead m) s b ++ writeBus (rmwWrite m) w (afterRead (rmwRead m) s b g) c := by
  cases m with
  | accumulator => rfl
  | absolute =>
    have hlo := rd_add_addr s.pc 2 0 (c 0)
    have hhi := rd_add_addr s.pc 2 1 (c 1)
    exact congrArg₂ (fun lo hi => readBus .absolute s b ++ [lo, hi, .write (addr (le16 (c 0) (c 1))) w])
      hlo.symm hhi.symm
  | zeroPage =>
    have hz := rd_add_addr s.pc 1 0 (c 0)
    exact congrArg (fun z => readBus .zeroPage s b ++ [z, .write (addr (c 0).toNat) w]) hz.symm

theorem readWidth_add_writeWidth (m : RmwMode) : readWidth (rmwRead m) + writeWidth (rmwWrite m) = rmwWidth m := by
  cases m <;> rfl

/-- A read-modify-write stores `value` of the source by its second resolution, for any memory agent. -/
theorem readModifyWrite_eq (m : RmwMode) (value : Byte → Byte) (status : Byte → Byte → Byte) (s : State) :
    ∃ (b : Answers) (g : MemAgent), s.mem.serve (rmwBus m (value (rmwSource m s b)) s b) = some g ∧
      readModifyWrite m value status s =
        afterRmw m (value (rmwSource m s b)) (status (rmwSource m s b) s.p) s b g := by
  obtain ⟨b, g, hread, hreadOp⟩ := readResolutions (rmwRead m) s
  obtain ⟨c, h, hwrite, hwriteOp⟩ :=
    writeResolutions (rmwWrite m) (value (readValue (rmwRead m) s b)) (afterRead (rmwRead m) s b g)
  refine ⟨joinAnswers m b c, h, ?_⟩
  rw [rmwSource_joinAnswers, afterRmw, rmwBus_joinAnswers m _ s b c g]
  constructor
  · rw [MemAgent.serve_append, hread]
    exact hwrite
  · rw [readModifyWrite, hreadOp, ← readWidth_add_writeWidth, ← BitVec.add_assoc, ← List.append_assoc]
    simp only [← rmwWrite_eq_accumulator]
    exact congrArg (updateP (status _)) hwriteOp

/-- The shift is the halved number (R140). -/
theorem lsrValue_eq_ofNat (v : Byte) : lsrValue v = BitVec.ofNat 8 (v.toNat / 2) := by
  rw [← lsrValue_toNat, BitVec.ofNat_toNat, BitVec.setWidth_eq]

/-- LSR's flags in the closed form of the statement: C is the remainder of the halving (R140). -/
theorem lsrFlags_eq_flags (s : State) (v : Byte) : lsrFlags v s.p =
    flags s (decide (v.toNat % 2 = 1)) (decide (v.toNat / 2 = 0)) (fI s) (fD s) (fV s) false := by
  have hc : v.getLsbD 0 = decide (v.toNat % 2 = 1) := Nat.testBit_zero v.toNat
  have hz : (lsrValue v == 0) = decide (v.toNat / 2 = 0) := by
    rw [← lsrValue_toNat, beq_eq_decide]
    exact decide_eq_decide.mpr BitVec.toNat_inj.symm
  rw [lsrFlags_eq, hc, hz]
  rfl

theorem decFlags_eq_respond (s : State) (v : Byte) : decFlags v s.p = respond s (v - 1) := by
  rw [decFlags, decValue_eq, respondToLoad_eq_respond]

/-- Settles O11: LSR halves its source, and C is what the halving leaves over. -/
theorem lsrShiftsSourceToDestination : Obligations.LsrShiftsSourceToDestination := by
  refine ⟨⟨row_of_encode, row_of_encode, row_of_encode, onlyModes_of_admits .lsr (by decide)⟩, fun m s => ?_⟩
  obtain ⟨b, g, hserve, hleaves⟩ := readModifyWrite_eq m lsrValue lsrFlags s
  rw [lsrValue_eq_ofNat] at hserve hleaves
  exact ⟨b, g, hserve, by rw [exec_lsr, lsr_eq_readModifyWrite, hleaves, lsrFlags_eq_flags]⟩

/-- Settles O12: DEC stores its source less one, and Z and N by `RespondToLoad`. -/
theorem decDecrementsSourceToDestination : Obligations.DecDecrementsSourceToDestination := by
  refine ⟨⟨row_of_encode, row_of_encode, row_of_encode, onlyModes_of_admits .dec (by decide)⟩, fun m s => ?_⟩
  obtain ⟨b, g, hserve, hleaves⟩ := readModifyWrite_eq m decValue decFlags s
  rw [decValue_eq] at hserve hleaves
  exact ⟨b, g, hserve, by rw [exec_dec, dec_eq_readModifyWrite, hleaves, decFlags_eq_respond]⟩

/-- Settles O13: DEY stores `Y` less one in `Y`, and Z and N respond by `RespondToLoad`. -/
theorem deyDecrementsIndexY : Obligations.DeyDecrementsIndexY := by
  refine ⟨modelessRow_of_encode (by decide), fun m s => ?_⟩
  rw [exec_dey, dey, updateP, State.setY_p, decValue_eq, respondToLoad_eq_respond]
  rfl

end Sys2Proof.Machine
end

section
/-! The control transfers (44_control_transfer.md, R150 to R154). JMP and JSR take their target from the address supply,
JSR and RTS are stack primitives around a write of `PC`, and the two branches are one handler with its condition as
argument. JSR and then RTS return, because two slots of a stack page of stored bytes hold what was last pushed there. -/

namespace Sys2Proof.Machine

open Claims

section
variable (w : Addr)

/-- The next address as a number (R43). -/
theorem toNat_add_one_mod : (w.toNat + 1) % 65536 = (w + 1).toNat := (BitVec.toNat_add w 1).symm

theorem highByte_eq_ofNat : highByte w = BitVec.ofNat 8 (w.toNat / 256) := by
  rw [← highByte_toNat, BitVec.ofNat_toNat, BitVec.setWidth_eq]

theorem lowByte_eq_ofNat : lowByte w = BitVec.ofNat 8 (w.toNat % 256) := by
  rw [← lowByte_toNat, BitVec.ofNat_toNat, BitVec.setWidth_eq]

theorem word16_add_one (lo hi : Byte) : word16 lo hi + 1 = addr (le16 lo hi + 1) := by
  rw [word16_eq_addr, addr_add]
  rfl

/-- The two halves of an address make it up again (R6, R44). -/
theorem addr_le16_low_high : addr (le16 (lowByte w) (highByte w)) = w := by
  rw [← word16_eq_addr, word16_low_high]

end

theorem MemAgent.serve_append_of_serve {g h : MemAgent} {ts : List Transaction} (hs : g.serve ts = some h)
    (us : List Transaction) : g.serve (ts ++ us) = h.serve us := by
  rw [MemAgent.serve_append, hs, Option.bind_some]

/-- The stack page of an agent is plain RAM, in canonical form (R45, R56). -/
structure StackRam (g : MemAgent) : Prop where
  wf : g.cells.wf = true
  routed : ∀ n : Nat, 0x100 ≤ n → n ≤ 0x1FF → route g.map n = .cell n true

section
variable {g : MemAgent} (h : StackRam g)
include h

theorem StackRam.write (a : Addr) (v : Byte) : StackRam (g.write a v) :=
  ⟨g.wf_write a v h.wf, by simpa using h.routed⟩

/-- Serving any transactions keeps the stack page what it is. -/
theorem StackRam.serve {g' : MemAgent} {ts : List Transaction} (hs : g.serve ts = some g') : StackRam g' := by
  obtain ⟨hmap, hwf, -⟩ := MemAgent.serve_spec hs
  exact ⟨hwf h.wf, by rw [hmap]; exact h.routed⟩

theorem StackRam.route_slot (i : Byte) :
    route g.map (stackBase + zext16 i).toNat = .cell (stackBase + zext16 i).toNat true := by
  have hi := i.isLt
  have hslot := stackSlot_toNat i
  exact h.routed _ (by omega) (by omega)

theorem StackRam.read_slot_keeps (i : Byte) : (g.read (stackBase + zext16 i)).2 = g := by
  rw [MemAgent.read_cell g _ (h.route_slot i)]

/-- A slot answers what was last written to it, and a write to another slot leaves it alone (R51). -/
theorem StackRam.read_slot_of_write (i j : Byte) (v : Byte) :
    ((g.write (stackBase + zext16 i) v).read (stackBase + zext16 j)).1 =
      if j = i then v else (g.read (stackBase + zext16 j)).1 := by
  have hslot : (stackBase + zext16 j).toNat = (stackBase + zext16 i).toNat ↔ j = i := by
    rw [stackSlot_toNat, stackSlot_toNat, Nat.add_left_cancel_iff, BitVec.toNat_inj]
  rw [MemAgent.read_write_cell h.wf (h.route_slot i) (h.route_slot j), if_congr hslot rfl rfl]

/-- Two different slots, written one after the other, answer what was written to them. -/
theorem StackRam.serve_slots {g' : MemAgent} {i j hi lo hi' lo' : Byte} (hij : i ≠ j)
    (hserve : g.serve [.write (stackBase + zext16 i) hi, .write (stackBase + zext16 j) lo,
      .read (stackBase + zext16 j) lo', .read (stackBase + zext16 i) hi'] = some g') : lo = lo' ∧ hi = hi' := by
  have hfirst := h.write (stackBase + zext16 i) hi
  have hboth := hfirst.write (stackBase + zext16 j) lo
  simp only [MemAgent.serve_write, MemAgent.serve_read, Option.ite_none_right_eq_some, hboth.read_slot_keeps,
    hfirst.read_slot_of_write, h.read_slot_of_write, if_neg hij, if_true] at hserve
  obtain ⟨hlo, hhi, -⟩ := hserve
  exact ⟨hlo, hhi⟩

end

/-- RTS is two pulls, whose bytes are the halves of the address before the one it continues at (R152). -/
theorem rts_eq (s : State) :
    rts s = (pull (pull s).2).2.setPc (word16 (pull s).1 (pull (pull s).2).1 + 1) := by
  simp only [rts, setPcl, setPch, advancePc, pull_spec, State.setPc, lowByte_word16]

/-- A branch with its target as the signed sum (R99, R153, R154). -/
theorem branchIf_reads (cond : Bool) (s : State) : ∃ (d : Byte) (g : MemAgent),
    s.mem.serve [rd s.pc.toNat d] = some g ∧ branchIf cond s =
      { s with pc := if cond then BitVec.ofInt 16 ((s.pc.toNat : Int) + 1 + d.toInt) else s.pc + 1
               mem := g, bus := s.bus ++ [rd s.pc.toNat d] } := by
  refine ⟨(s.mem.read s.pc).1, (s.mem.read s.pc).2, by simp, ?_⟩
  have htarget (d : Byte) : s.pc + 1 + sext16 d = BitVec.ofInt 16 ((s.pc.toNat : Int) + 1 + d.toInt) := by
    rw [BitVec.add_assoc, BitVec.add_comm 1, ← BitVec.add_assoc, add_sext16, Int.add_right_comm, BitVec.ofInt_add _ 1]
    rfl
  rw [branchIf_spec, htarget, rd_toNat]

/-- Settles O14: the address supply leaves `PC`, and JMP then writes it. -/
theorem jmpLoadsProgramCounter : Obligations.JmpLoadsProgramCounter := by
  refine ⟨⟨row_of_encode, onlyModes_of_admits .jmp (by decide)⟩, fun s => ?_⟩
  obtain ⟨lo, hi, g, hserve, hsupply⟩ := addressSupplyLeavesPc s
  refine ⟨lo, hi, g, hserve, ?_⟩
  rw [exec_jmp, jmp, hsupply]
  rfl

/-- Settles O15: the address supply, then two pushes of the halves of `PC + 1`. -/
theorem jsrPushesLastByteAddress : Obligations.JsrPushesLastByteAddress := by
  refine ⟨⟨row_of_encode, onlyModes_of_admits .jsr (by decide)⟩, fun s => ?_⟩
  obtain ⟨lo, hi, g, hserve, hsupply⟩ := addressSupplyLeavesPc s
  simp only [toNat_add_one_mod, ← highByte_eq_ofNat, ← lowByte_eq_ofNat, ← stackSlot_eq_addr]
  refine ⟨lo, hi, _, MemAgent.serve_append_of_serve hserve [_, _], ?_⟩
  rw [exec_jsr, jsr, hsupply]
  simp [push_spec, advancePc, State.setPc, BitVec.sub_sub]

/-- Settles O16: two pulls fill the halves of `PC`. -/
theorem rtsReturnsPastPulledAddress : Obligations.RtsReturnsPastPulledAddress := by
  refine ⟨modelessRow_of_encode (by decide), fun m s => ?_⟩
  obtain ⟨lo, g, hlo, hpullLo⟩ := stackPrimitives.2.1 s
  obtain ⟨hi, h, hhi, hpullHi⟩ := stackPrimitives.2.1 (pull s).2
  rw [hpullLo] at hhi hpullHi
  have hsp : s.sp + 2 = s.sp + 1 + 1 := (BitVec.add_assoc s.sp 1 1).symm
  rw [hsp, exec_rts, rts_eq, hpullLo, hpullHi, word16_add_one]
  refine ⟨lo, hi, h, (MemAgent.serve_append_of_serve hlo [_]).trans hhi, ?_⟩
  simp only [State.setPc, List.append_assoc]
  rfl

/-- Settles O17: BEQ is the branch on ZERO. -/
theorem beqBranchesOnZeroSet : Obligations.BeqBranchesOnZeroSet := by
  refine ⟨⟨row_of_encode, onlyModes_of_admits .beq (by decide)⟩, fun s => ?_⟩
  obtain ⟨d, g, hserve, hbranch⟩ := branchIf_reads (fZ s) s
  exact ⟨d, g, hserve, congrArg Host.Outcome.next hbranch⟩

/-- Settles O18: BNE is the branch on ZERO clear. -/
theorem bneBranchesOnZeroClear : Obligations.BneBranchesOnZeroClear := by
  refine ⟨⟨row_of_encode, onlyModes_of_admits .bne (by decide)⟩, fun s => ?_⟩
  obtain ⟨d, g, hserve, hbranch⟩ := branchIf_reads (!fZ s) s
  exact ⟨d, g, hserve, congrArg Host.Outcome.next hbranch⟩

/-- Settles O51: RTS pulls the two bytes JSR pushed, the halves of the address of the JSR's last byte, and adds one. -/
theorem jsrThenRtsReturns : Obligations.JsrThenRtsReturns := by
  intro s t m hpage hwf ht
  obtain ⟨lo, hi, g, hserve, hjsr⟩ := jsrPushesLastByteAddress.2 s
  cases hjsr.symm.trans ht
  obtain ⟨lo', hi', h, hpulls, hrts⟩ := rtsReturnsPastPulledAddress.2 m _
  refine ⟨_, hrts, ?_, BitVec.sub_add_cancel s.sp 2, rfl, rfl, rfl, rfl⟩
  obtain ⟨g₁, hreads, hpushes⟩ := Option.bind_eq_some_iff.mp
    ((MemAgent.serve_append s.mem [_, _] [_, _]).symm.trans hserve)
  have hram : StackRam g₁ := StackRam.serve ⟨hwf, hpage⟩ hreads
  have hslots := (MemAgent.serve_append_of_serve hpushes _).trans hpulls
  have hlower : s.sp - 2 + 1 = s.sp - 1 := by bv_omega
  simp only [rd, hlower, BitVec.sub_add_cancel, ← stackSlot_eq_addr] at hslots
  obtain ⟨rfl, rfl⟩ := hram.serve_slots (by bv_omega) hslots
  rw [toNat_add_one_mod, ← highByte_eq_ofNat, ← lowByte_eq_ofNat, addr_add, addr_le16_low_high, BitVec.add_assoc]
  rfl

end Sys2Proof.Machine
end

section
/-! The one-flag instructions (45_flag_ops.md, R160 to R163). Each is one `AssignFlag` (R90) of a constant to the status
register: SEI and SEC assign true to I and C, CLD and CLC assign false to D and C. -/

namespace Sys2Proof.Machine

open Claims

/-- `AssignFlag` in the closed form of the statements: five flags and the two unnamed bits are kept (R90). -/
theorem assignFlag_eq_flags (f : Flag) (b : Bool) (s : State) : assignFlag f b s.p =
    flags s (if f = .c then b else fC s) (if f = .z then b else fZ s) (if f = .i then b else fI s)
      (if f = .d then b else fD s) (if f = .v then b else fV s) (if f = .n then b else fN s) := by
  conv => lhs; rw [eq_statusByte s.p]
  cases f with
  | c => exact assign_c_statusByte ..
  | z => exact assign_z_statusByte ..
  | i => exact assign_i_statusByte ..
  | d => exact assign_d_statusByte ..
  | v => exact assign_v_statusByte ..
  | n => exact assign_n_statusByte ..

/-- Settles O19: each of the four writes `P` alone, and there by `AssignFlag` of its flag. -/
theorem flagInstructionsWriteOneBit : Obligations.FlagInstructionsWriteOneBit := by
  refine ⟨modelessRow_of_encode (by decide), modelessRow_of_encode (by decide), modelessRow_of_encode (by decide),
    modelessRow_of_encode (by decide), fun m s => ?_⟩
  simp only [exec_sei, exec_cld, exec_clc, exec_sec, sei, cld, clc, sec, updateP, setFlag_eq_assign,
    clearFlag_eq_assign, assignFlag_eq_flags]
  exact ⟨rfl, rfl, rfl, rfl⟩

end Sys2Proof.Machine
end

section
/-! No instruction touches the fault latch, the pending set or a parameter, and none looks at the pending set
(60_exceptions.md, R27, R171, R175, R177). -/

namespace Sys2Proof.Machine

/-- Settles O41: all an instruction does at the memory boundary is to have transactions served, and beside that it
moves registers. -/
theorem admittedInstructionsNeverFault : Obligations.AdmittedInstructionsNeverFault := by
  intro i s
  obtain ⟨t, ts, ht, hissues⟩ := exec_issues i s
  obtain ⟨hmap, hdecode, hresponse⟩ := hissues.sameParameters
  exact ⟨t, ht, hissues.fault, hissues.pending, hdecode, hresponse, hmap⟩

theorem exec_pending {i : Instr} {s t : State} (h : exec i s = .next t) : t.pending = s.pending := by
  obtain ⟨u, hu, -, hpending, -⟩ := admittedInstructionsNeverFault i s
  cases hu.symm.trans h
  exact hpending

@[simp] theorem branchIf_setPending (cond : Bool) (ks : List IntKind) (s : State) :
    branchIf cond (s.setPending ks) = (branchIf cond s).setPending ks := by cases cond <;> rfl

/-- Whatever is pending, an instruction does the same: in each mode the handler is the same term but for that field. -/
theorem exec_setPending {i : Instr} {s t : State} (h : exec i s = .next t) (ks : List IntKind) :
    exec i (s.setPending ks) = .next (t.setPending ks) := by
  induction i, t, h using exec_cases with
  | lda m | ldx m | ldy m | and m | ora m | adc m | cmp m | cpy m | sta m | dec m | lsr m => cases m <;> rfl
  | txs | dey | jmp | jsr | rts | sei | cld | clc | sec => rfl
  | beq => simp [beq]
  | bne => simp [bne]

/-- Settles O58: setting a kind pending writes the pending set alone, which no instruction looks at or changes. -/
theorem pendingUnseenByHandlers : Obligations.PendingUnseenByHandlers := by
  refine ⟨fun i k s t h => ?_, fun k s => ⟨fun j => mem_insertKind, rfl, pendingWf_insertKind⟩⟩
  rw [raiseInterrupt, raiseInterrupt, exec_pending h]
  exact exec_setPending h _

end Sys2Proof.Machine
end

section
/-! The decode fault is precise (60_exceptions.md, R170 to R173): it is the fault of the byte at `PC`, and its step has
done the opcode fetch only. -/

namespace Sys2Proof

theorem info_of_decodeFault {dw : DispatchWord} {f : DecodeFault} (h : decode dw = .error f) : f.info = dw := by
  cases hop : Operation.ofNumber (opField dw) with
  | none => cases (decode_unknown hop).symm.trans h; rfl
  | some op =>
    have hn := Operation.ofNumber_eq_some.mp hop
    cases hi : instrOf op (modeField dw) with
    | none => cases (decode_illegal hn hi).symm.trans h; rfl
    | some i => cases (decode_instrOf hn hi).symm.trans h

end Sys2Proof

namespace Sys2Proof.Machine

open Claims

/-- A ready core whose byte at `PC` stands for an instruction does not latch a fault (R171). -/
theorem fault_of_step_decoded {s t : State} {i : Instr} (hr : Ready s)
    (hi : decodeByte s.decodeMap (opcodeAt s) = .ok i) (h : step s = .next t) : t.fault = none := by
  obtain ⟨u, hu, hfault, -⟩ := admittedInstructionsNeverFault i (fetched s)
  cases hu.symm.trans ((step_of_decodeByte hr hi).symm.trans h)
  exact hfault.trans hr.1

/-- Settles O39. A step that ends with a fault latched is that of a byte that stands for no instruction, since an
instruction leaves the latch clear. -/
theorem decodeFaultIsPrecise : Obligations.DecodeFaultIsPrecise := by
  refine ⟨fun _ _ s hf => dispatch_of_fault hf s, fun _ _ hr hf => step_of_decodeFault hr hf,
    fun _ _ _ hlookup hf => ⟨(decodeByte_of_lookup hlookup).trans hf, info_of_decodeFault hf⟩,
    fun s t hr h hlatched => ?_⟩
  cases hd : decodeByte s.decodeMap (opcodeAt s) with
  | ok i => exact absurd (fault_of_step_decoded hr hd h) hlatched
  | error f =>
    cases (step_of_decodeFault hr hd).symm.trans h
    exact ⟨f, rfl, rfl, MemAgent.read_cells s.mem s.pc⟩

end Sys2Proof.Machine
end

section
/-! The boundaries at which no instruction is fetched (60_exceptions.md, R174, R177, R178, R180): a halted core, and a
kind pending, which goes to the connected response. -/

namespace Sys2Proof.Machine

theorem step_of_fault {s : State} {f : DecodeFault} (h : s.fault = some f) : step s = .next s := by
  simp [step, h]

/-- Settles O36: the step, a run and the dispatch interface look at the latch first. -/
theorem haltedCoreDoesNothing : Obligations.HaltedCoreDoesNothing := by
  intro s f hf
  have hresult : stepResult s = false := by simp [stepResult, hf]
  exact ⟨step_of_fault hf, hresult, fun n => by simp [runSteps, step_of_fault hf, hresult],
    fun dw => by simp [presentWord, hf]⟩

/-- The response is asked about the first of the pending kinds (log 12). -/
theorem step_of_pending {s : State} {k : IntKind} {ks : List IntKind} (hf : s.fault = none) (hp : s.pending = k :: ks) :
    step s = intResponse k s := by
  simp [step, hf, hp]

theorem runSteps_of_refused {s : State} {r : Refusal} (h : step s = .refused r) (n : Nat) :
    runSteps (n + 1) s = .refused r := by
  simp [runSteps, h]

theorem intResponse_refuse {s : State} (h : s.response = .refuse) (k : IntKind) :
    intResponse k s = .refused (.pendingInterrupt k) := by
  simp [intResponse, h]

section
variable {s : State} {k : IntKind} {id : Nat} (h : s.response = .external id)
include h

theorem intResponse_external_none (hr : Config.intResponse id s k = none) :
    intResponse k s = .refused (.pendingInterrupt k) := by
  simp [intResponse, h, hr]

theorem intResponse_external_some {r : State} (hr : Config.intResponse id s k = some r) :
    intResponse k s = .next (takeResponse s r) := by
  simp [intResponse, h, hr]

end

/-- A set of kinds made canonical has the kinds it had. -/
theorem mem_foldr_insertKind {j : IntKind} {ks : List IntKind} : j ∈ ks.foldr insertKind [] ↔ j ∈ ks := by
  induction ks with
  | nil => rfl
  | cons k ks ih => rw [List.foldr_cons, mem_insertKind, ih, List.mem_cons]

/-- A memory made from the cells of a canonical one reads as that one does. -/
theorem Memory.read_ofCells {m : Memory} {bound : Nat} (h : m.wfFrom bound = true) (n : Nat) :
    (Memory.ofCells m).read n = m.read n := by
  induction m generalizing bound with
  | nil => rfl
  | cons cell rest ih =>
    obtain ⟨a, v⟩ := cell
    simp only [Memory.wfFrom, Bool.and_eq_true, decide_eq_true_eq] at h
    obtain ⟨⟨⟨-, ha⟩, -⟩, hrest⟩ := h
    calc (Memory.ofCells ((a, v) :: rest)).read n
      _ = ((Memory.ofCells rest).write (a % 65536) v).read n := rfl
      _ = if n = a then v else Memory.read rest n := by
        rw [Nat.mod_eq_of_lt ha, Memory.read_write (Memory.wf_ofCells rest), ih hrest]
      _ = Memory.read ((a, v) :: rest) n := by simp only [Memory.read, eq_comm]

/-- Settles O37: the kind is the first pending, and a state the response gives is taken in canonical form. -/
theorem pendingInterruptRefusesRun : Obligations.PendingInterruptRefusesRun := by
  intro s hf hpending
  obtain ⟨k, ks, hp⟩ := List.exists_cons_of_ne_nil hpending
  have hstep := step_of_pending hf hp
  refine ⟨k, by simp [hp], fun hrefuse => ?_, fun id hid => ⟨fun hnone => ?_, fun r hr => ?_⟩⟩
  · have hrefused := hstep.trans (intResponse_refuse hrefuse k)
    exact ⟨hrefused, runSteps_of_refused hrefused⟩
  · exact hstep.trans (intResponse_external_none hid hnone)
  · obtain ⟨hdecode, hresponse, hmap, hcells⟩ := takeResponse_spec s r
    exact ⟨takeResponse s r, hstep.trans (intResponse_external_some hid hr),
      ⟨rfl, rfl, rfl, rfl, rfl, rfl, rfl, rfl⟩, fun _ => mem_foldr_insertKind, pendingWf_foldr_insertKind r.pending,
      Memory.read_ofCells, hcells, rfl, hmap, hdecode, hresponse⟩

end Sys2Proof.Machine
end

section
/-! The flags a step moves one way only (70_reset_and_hazards.md, R204): D can only be cleared (R22), I can only be set
(R21), and V moves in ADC alone (R23). Each follows from the flag table and the one operation that writes the flag. -/

namespace Sys2Proof.Machine

open Claims

section
variable {op : Operation}

theorem writesFlag_d : writesFlag op .d = true ↔ op = .cld := by cases op <;> decide
theorem writesFlag_i : writesFlag op .i = true ↔ op = .sei := by cases op <;> decide
theorem writesFlag_v : writesFlag op .v = true ↔ op = .adc := by cases op <;> decide
end

section
variable {i : Instr}

theorem eq_cld_of_operation (h : i.operation = .cld) : ∃ b, i = .cld b := by
  cases i <;> cases h
  exact ⟨_, rfl⟩

theorem eq_sei_of_operation (h : i.operation = .sei) : ∃ b, i = .sei b := by
  cases i <;> cases h
  exact ⟨_, rfl⟩
end

section
variable {i : Instr} {s t : State} (h : exec i s = .next t)
include h

/-- A flag that has moved is one the flag table gives the operation. -/
theorem writesFlag_of_exec_ne {f : Flag} (hne : getFlag f t.p ≠ getFlag f s.p) : writesFlag i.operation f = true :=
  Bool.of_not_eq_false fun hf => hne ((exec_flagsByTable h).flag f hf)

/-- Only CLD writes D, and it clears it (R22, R161). -/
theorem exec_keeps_d_clear (hd : fD s = false) : fD t = false := by
  by_contra hset
  have hmoved : getFlag .d t.p ≠ getFlag .d s.p := fun heq => hset (heq.trans hd)
  obtain ⟨b, rfl⟩ := eq_cld_of_operation (writesFlag_d.mp (writesFlag_of_exec_ne h hmoved))
  cases h
  exact hset ((getFlag_assignFlag .d .d false s.p).trans (if_pos rfl))

/-- Only SEI writes I, and it sets it (R21, R160). -/
theorem exec_keeps_i_set (hi : fI s = true) : fI t = true := by
  by_contra hclear
  have hmoved : getFlag .i t.p ≠ getFlag .i s.p := fun heq => hclear (heq.trans hi)
  obtain ⟨b, rfl⟩ := eq_sei_of_operation (writesFlag_i.mp (writesFlag_of_exec_ne h hmoved))
  cases h
  exact hclear ((getFlag_assignFlag .i .i true s.p).trans (if_pos rfl))

end

/-- Settles O48, by the cases of a step: a halted core and a decode fault leave `P`, the open response is excluded, and an
instruction follows the flag table. -/
theorem oneWayFlags : Obligations.OneWayFlags := by
  intro s t hclosed h
  rcases step_cases h with ⟨-, rfl⟩ | ⟨-, hpending, hresponse, -⟩ | ⟨-, f, -, rfl⟩ | ⟨-, i, hi, hexec⟩
  · exact ⟨id, id, rfl, rfl, absurd rfl⟩
  · exact absurd hclosed (not_or.mpr ⟨hpending, hresponse⟩)
  · exact ⟨id, id, rfl, rfl, absurd rfl⟩
  · have hdecimal := exec_keeps_d_clear hexec
    have hdisable := exec_keeps_i_set hexec
    obtain ⟨-, hbit4, hbit5⟩ := exec_flagsByTable hexec
    exact ⟨hdecimal, hdisable, hbit4, hbit5, fun hv => ⟨i, hi, writesFlag_v.mp (writesFlag_of_exec_ne hexec hv)⟩⟩

end Sys2Proof.Machine
end

section
/-! One step of a run (R79): the run goes on from a running state, and ends with false at a halted one. -/

namespace Sys2Proof.Machine

theorem runSteps_of_step_running {s t : State} (h : step s = .next t) (ht : t.fault = none) (n : Nat) :
    runSteps (n + 1) s = runSteps n t := by
  simp [runSteps, h, stepResult, ht]

theorem runSteps_of_step_halted {s t : State} (h : step s = .next t) (ht : t.fault ≠ none) (n : Nat) :
    runSteps (n + 1) s = .next (t, false) := by
  simp [runSteps, h, stepResult, ht]

/-- Where a running state is its own next state, a run of any length ends there with true. -/
theorem runSteps_of_step_self {t : State} (h : step t = .next t) (ht : t.fault = none) (n : Nat) :
    runSteps n t = .next (t, true) := by
  induction n with
  | zero => rfl
  | succ n ih => rw [runSteps_of_step_running h ht, ih]

end Sys2Proof.Machine
end

section
/-! A JMP to its own address (70_reset_and_hazards.md, R208, R150): its step leaves the core where it was, so it is the
step of every later boundary too. -/

namespace Sys2Proof.Machine

open Claims

/-- A ready core at a JMP to its own address, the three bytes of which can be read without effect. -/
structure SelfJumping (s : State) : Prop where
  ready : Ready s
  quiet : ∀ a ∈ [s.pc, s.pc + 1, s.pc + 2], (s.mem.read a).2 = s.mem
  opcode : decodeByte s.decodeMap (opcodeAt s) = .ok .jmpAbsolute
  target : addr (le16 (s.mem.read (s.pc + 1)).1 (s.mem.read (s.pc + 2)).1) = s.pc

/-- The transactions of a JMP at `PC`: its three bytes are read in order. -/
def jmpReads (s : State) : List Transaction :=
  [.read s.pc (opcodeAt s), .read (s.pc + 1) (s.mem.read (s.pc + 1)).1, .read (s.pc + 2) (s.mem.read (s.pc + 2)).1]

section
variable {s : State} (h : SelfJumping s)
include h

/-- The record of transactions is no part of what makes a state one of these. -/
theorem SelfJumping.setBus (ts : List Transaction) : SelfJumping (s.setBus ts) :=
  ⟨h.ready, h.quiet, h.opcode, h.target⟩

theorem SelfJumping.step_eq : step s = .next (s.setBus (jmpReads s)) := by
  have hfetch : (s.mem.read s.pc).2 = s.mem := h.quiet _ (by simp)
  have hlow : (s.mem.read (s.pc + 1)).2 = s.mem := h.quiet _ (by simp)
  have hhigh : (s.mem.read (s.pc + 2)).2 = s.mem := h.quiet _ (by simp)
  have hnext : s.pc + 1 + 1 = s.pc + 2 := BitVec.add_assoc s.pc 1 1
  rw [step_of_decodeByte h.ready h.opcode, exec_jmp]
  simp only [jmp, addrOf_spec, fetched, hfetch, hlow, hhigh, hnext, word16_eq_addr, h.target]
  rfl

/-- After one step the very same state recurs: the same three reads make up the same record. -/
theorem SelfJumping.step_step : step (s.setBus (jmpReads s)) = .next (s.setBus (jmpReads s)) :=
  (h.setBus _).step_eq

end

/-- Settles O52: the first step leaves a fixed point of the step. -/
theorem selfJumpRepeatsForEver : Obligations.SelfJumpRepeatsForEver := by
  intro s hready hquiet hopcode htarget
  have h : SelfJumping s := ⟨hready, hquiet, hopcode, htarget⟩
  have hrunning : (s.setBus (jmpReads s)).fault = none := hready.1
  refine ⟨s.setBus (jmpReads s), h.step_eq, rfl, h.step_step, fun n => ?_⟩
  rw [runSteps_of_step_running h.step_eq hrunning]
  exact runSteps_of_step_self h.step_step hrunning n

end Sys2Proof.Machine
end

section
/-! The three ends of a run with an end-of-program predicate (70_reset_and_hazards.md, R208; R79; log 14), and the two end
markers of the spec. -/

namespace Sys2Proof.Machine

open Claims

/-- What the end `e` of a run of up to n steps from `s` to `t` says of the run without a predicate. -/
def EndsBy (ended : State → Bool) (n : Nat) (s t : State) : RunEnd → Prop
  | .budget => runSteps n s = .next (t, true) ∧ ended t = false
  | .decodeFault => t.fault ≠ none ∧ ∃ k < n, runSteps (k + 1) s = .next (t, false)
  | .predicate => ended t = true ∧ ∃ k ≤ n, runSteps k s = .next (t, true) ∧
      ∀ j < k, ∀ u, runSteps j s = .next (u, true) → ended u = false

section
variable {ended : State → Bool} {n : Nat} {s t u : State} {e : RunEnd}

/-- At a boundary with steps left a run ends by the predicate, ends by the fault of its step, or goes on. -/
theorem runUntil_succ_cases (h : runUntil ended (n + 1) s = .next (t, e)) :
    (ended s = true ∧ t = s ∧ e = .predicate) ∨
    (ended s = false ∧ step s = .next t ∧ t.fault ≠ none ∧ e = .decodeFault) ∨
    (ended s = false ∧ ∃ u, step s = .next u ∧ u.fault = none ∧ runUntil ended n u = .next (t, e)) := by
  rw [runUntil] at h
  cases hs : ended s with
  | true =>
    simp only [hs, if_true] at h
    cases h
    exact .inl ⟨rfl, rfl, rfl⟩
  | false =>
    cases hstep : step s with
    | fault r => cases r
    | refused r => simp [hs, hstep] at h
    | next u =>
      cases hu : u.fault with
      | none => exact .inr (.inr ⟨rfl, u, rfl, hu, by simpa [hs, hstep, stepResult, hu] using h⟩)
      | some f =>
        simp only [hs, hstep, stepResult, hu] at h
        cases h
        exact .inr (.inl ⟨rfl, rfl, by simp [hu], rfl⟩)

theorem runUntil_of_step_halted (hs : ended s = false) (h : step s = .next t) (ht : t.fault ≠ none) (n : Nat) :
    runUntil ended (n + 1) s = .next (t, .decodeFault) := by
  simp [runUntil, hs, h, stepResult, ht]

theorem endsBy_predicate_here (n : Nat) (h : ended s = true) : EndsBy ended n s s .predicate :=
  ⟨h, 0, Nat.zero_le n, rfl, fun _ hj => absurd hj (Nat.not_lt_zero _)⟩

/-- One more step before a run, from a boundary at which the predicate does not hold. -/
theorem EndsBy.step (h : EndsBy ended n u t e) (hs : ended s = false) (hstep : step s = .next u)
    (hu : u.fault = none) : EndsBy ended (n + 1) s t e := by
  have hrun := runSteps_of_step_running hstep hu
  cases e with
  | budget => exact ⟨(hrun n).trans h.1, h.2⟩
  | decodeFault =>
    obtain ⟨hfault, k, hk, hsteps⟩ := h
    exact ⟨hfault, k + 1, Nat.succ_lt_succ hk, (hrun _).trans hsteps⟩
  | predicate =>
    obtain ⟨hended, k, hk, hsteps, hfirst⟩ := h
    refine ⟨hended, k + 1, Nat.succ_le_succ hk, (hrun k).trans hsteps, fun j hj v hv => ?_⟩
    cases j with
    | zero => cases hv; exact hs
    | succ j => exact hfirst j (Nat.lt_of_succ_lt_succ hj) v ((hrun j).symm.trans hv)

/-- Each end of a run is as R208 says, by induction on the budget. -/
theorem runUntil_endsBy (h : runUntil ended n s = .next (t, e)) : EndsBy ended n s t e := by
  induction n generalizing s with
  | zero =>
    cases hs : ended s <;> simp only [runUntil, hs] at h <;> cases h
    · exact ⟨rfl, hs⟩
    · exact endsBy_predicate_here 0 hs
  | succ n ih =>
    rcases runUntil_succ_cases h with ⟨hs, rfl, rfl⟩ | ⟨-, hstep, ht, rfl⟩ | ⟨hs, u, hstep, hu, hrest⟩
    · exact endsBy_predicate_here _ hs
    · exact ⟨ht, 0, Nat.succ_pos n, runSteps_of_step_halted hstep ht 0⟩
    · exact (ih hrest).step hs hstep hu

end

theorem atUnmappedByte_iff {s : State} : atUnmappedByte s = true ↔ s.decodeMap.lookup (opcodeAt s) = none := beq_iff_eq

/-- The end marker is read off the three bytes at `PC`. -/
theorem atSelfJump_iff {s : State} : atSelfJump s = true ↔
    decodeByte s.decodeMap (opcodeAt s) = .ok .jmpAbsolute ∧
    addr (le16 (s.mem.read (s.pc + 1)).1 (s.mem.read (s.pc + 2)).1) = s.pc := by
  rw [atSelfJump, ← opcodeAt, ← word16_eq_addr]
  cases decodeByte s.decodeMap (opcodeAt s) <;> simp

/-- Settles O60: the ends of a run by induction, and the first step at an unmapped byte latches its fault. -/
theorem runEndsByBudgetFaultOrPredicate : Obligations.RunEndsByBudgetFaultOrPredicate := by
  refine ⟨fun ended n s t e h => ?_, fun n s hr hunmapped => ?_, fun s => atSelfJump_iff⟩
  · have hends := runUntil_endsBy h
    refine ⟨?_, ?_, ?_⟩ <;> (rintro rfl; exact hends)
  · have hstep := step_of_unmapped hr (atUnmappedByte_iff.mp hunmapped)
    exact ⟨_, runUntil_of_step_halted rfl hstep (by simp) n, rfl⟩

end Sys2Proof.Machine
end

section
/-! Launch and re-initialisation (70_reset_and_hazards.md, R190, R191). -/

namespace Sys2Proof.Machine

open Claims

/-- A ready core always answers a next state: neither a decode fault nor an instruction refuses. -/
theorem exists_step_of_ready {s : State} (hr : Ready s) : ∃ t, step s = .next t := by
  cases hd : decodeByte s.decodeMap (opcodeAt s) with
  | error f => exact ⟨_, step_of_decodeFault hr hd⟩
  | ok i =>
    obtain ⟨t, -, ht, -⟩ := exec_issues i (fetched s)
    exact ⟨t, (step_of_decodeByte hr hd).trans ht⟩

/-- Settles O53: the launch state is ready, and a ready core's step begins with the fetch at `PC`. -/
theorem launchStateIsInit : Obligations.LaunchStateIsInit := by
  intro init g map r s
  have hready : Ready s := ⟨rfl, rfl⟩
  obtain ⟨t, ht⟩ := exists_step_of_ready hready
  obtain ⟨rest, hbus, -⟩ := step_serves hready ht
  exact ⟨⟨rfl, rfl, rfl, rfl, rfl, rfl⟩, ⟨rfl, rfl, rfl⟩, t, ht, congrArg List.head? hbus⟩

/-- Settles O54: re-initialisation is a launch that keeps memory, the parameters and the record of transactions. -/
theorem initializeRegistersClearsFault : Obligations.InitializeRegistersClearsFault :=
  fun _ _ => ⟨rfl, rfl, rfl⟩

end Sys2Proof.Machine
end

section
/-! An instruction placed at `PC` (log 9): its opcode byte stands for it in the decoder map, its operand bytes do not
reach round to `PC`, so the next fetch reads that opcode byte. -/

namespace Sys2Proof.Machine

open Claims

/-- Bytes placed in a canonical memory leave it canonical. -/
theorem Memory.wf_placeBytes {m : Memory} (h : m.wf = true) (a : Addr) (bytes : List Byte) :
    (placeBytes a bytes m).wf = true := by
  induction bytes generalizing a m with
  | nil => exact h
  | cons b rest ih => exact ih (Memory.wf_write h a b) (a + 1)

/-- Placed bytes leave an address alone that is none of theirs. -/
theorem Memory.read_placeBytes_other {a c : Addr} {bytes : List Byte} (h : ∀ k < bytes.length, c ≠ a + addr k)
    (m : Memory) : (placeBytes a bytes m).read c.toNat = m.read c.toNat := by
  induction bytes generalizing a m with
  | nil => rfl
  | cons b rest ih =>
    have hhead : c ≠ a := by simpa [addr] using h 0 (by simp)
    have hrest : ∀ k < rest.length, c ≠ a + 1 + addr k := fun k hk => by
      have hsum : a + 1 + addr k = a + addr (k + 1) := by rw [Nat.add_comm, addr_add, ← BitVec.add_assoc]; rfl
      exact hsum ▸ h (k + 1) (by simpa using hk)
    exact (ih hrest _).trans (Memory.read_write_other (mt BitVec.eq_of_toNat_eq hhead) b m)

/-- The first of bytes placed is the one at their address, where there are not so many that they reach round to it. -/
theorem Memory.read_placeBytes_head {m : Memory} (h : m.wf = true) (a : Addr) (b : Byte) {rest : List Byte}
    (hlen : rest.length < 65535) : (placeBytes a (b :: rest) m).read a.toNat = b := by
  have hother : ∀ k < rest.length, a ≠ a + 1 + addr k := fun k hk => by simp only [addr]; bv_omega
  exact (Memory.read_placeBytes_other hother _).trans (Memory.read_write_same h a.toNat b)

/-- The byte `mapFor` names stands for the word under the map it names (log 9). -/
theorem lookup_mapFor (dw : DispatchWord) (map : DecodeMap) : (mapFor dw map).2.lookup (mapFor dw map).1 = some dw := by
  unfold mapFor
  cases hb : map.byteFor dw with
  | some b => exact DecodeMap.lookup_of_byteFor hb
  | none => rfl

/-- No instruction has more operand bytes than two resolutions of two bytes each (R61, R65). -/
theorem operandBytes_le (i : Instr) : i.operandBytes ≤ 4 := by
  have haccesses (op : Operation) : op.accesses.length ≤ 2 := by cases op <;> decide
  have hmode (m : Mode) : m.operandBytes ≤ 2 := by cases m <;> decide
  unfold Instr.operandBytes
  cases i.mode with
  | none => exact Nat.zero_le 4
  | some m => exact Nat.mul_le_mul (haccesses _) (hmode m)

theorem operandBytesOf_le (dw : DispatchWord) : operandBytesOf dw ≤ 4 := by
  unfold operandBytesOf
  cases decode dw with
  | ok i => exact operandBytes_le i
  | error f => exact Nat.zero_le 4

section
variable {s : State} (hwf : s.mem.cells.wf = true) (dw : DispatchWord)
include hwf

theorem plainRam_placeInstruction : PlainRam (placeInstruction dw s) := ⟨rfl, Memory.wf_placeBytes hwf _ _⟩

/-- The opcode byte the next fetch reads is the one that stands for the word placed. -/
theorem opcodeAt_placeInstruction : opcodeAt (placeInstruction dw s) = (mapFor dw s.decodeMap).1 := by
  have hlen : (List.replicate (operandBytesOf dw) 0x00#8).length < 65535 := by
    rw [List.length_replicate]
    exact (operandBytesOf_le dw).trans_lt (by decide)
  exact (opcodeAt_plainRam rfl).trans (Memory.read_placeBytes_head hwf s.pc _ hlen)

theorem decodeByte_placeInstruction :
    decodeByte (placeInstruction dw s).decodeMap (opcodeAt (placeInstruction dw s)) = decode dw := by
  rw [opcodeAt_placeInstruction hwf]
  exact decodeByte_of_lookup (lookup_mapFor dw s.decodeMap)

end

/-- A table word that decodes is the number of a dispatch word that decodes (R66, R82). -/
theorem decode_of_decodeTableWord {nbits w : Nat} {i : Instr} (h : decodeTableWord nbits w = some i) :
    decode (BitVec.ofNat 9 (w % 2 ^ nbits)) = .ok i := by
  unfold decodeTableWord at h
  split at h
  case isTrue hw =>
    rw [Nat.mod_eq_of_lt hw.1]
    cases hd : decode (BitVec.ofNat 9 w) with
    | ok j => rw [hd] at h; cases h; rfl
    | error f => rw [hd] at h; cases h
  case isFalse => cases h

/-- Settles O56: the placed state is ready, and the byte its fetch reads stands for the instruction placed. -/
theorem placedInstructionRunsNext : Obligations.PlacedInstructionRunsNext := by
  intro s w i hwf hi t
  have hready : Ready t := ⟨rfl, rfl⟩
  have hbyte : decodeByte t.decodeMap (opcodeAt t) = .ok i :=
    (decodeByte_placeInstruction hwf _).trans (decode_of_decodeTableWord hi)
  exact ⟨step_of_decodeByte hready hbyte, hready, plainRam_placeInstruction hwf _, rfl, rfl, rfl, rfl, rfl, rfl⟩

end Sys2Proof.Machine
end
